-- ==== Sys2Proof/Word.lean ====
section
/-! DEFINITION. The two word sizes of the machine (`spec/00_scope.md` R5, R6) and the type that names
interrupt sources (`spec/00_scope.md` R5, `spec/10_state.md` R38). -/

namespace Sys2Proof

/-- A `u8`: A, X, Y, SP and every memory access (R5 DATA_WIDTH, R53). -/
abbrev Byte := BitVec 8

/-- A `u16`: PC and every address (R5 ADDR_WIDTH, R50). -/
abbrev Word := BitVec 16

/-- The name of an IRQ-class source: the spec leaves the type open, "any type with decidable equality"
(R5, row IrqSource). DESIGN CHOICE (safe, log entry 7): natural numbers stand for the names. -/
abbrev IrqSource := Nat

end Sys2Proof
end

