-- ==== Sys2Proof/Config.lean ====
section
/-! DEFINITION. The open parameters of `spec/00_scope.md` R5 as plain data, and the free values: what the memory
environment answers and signals at an address that is not plain RAM (`spec/20_memory.md` R62, R65). -/

namespace Sys2Proof

/-- UNKNOWN_POLICY of R5 (R88, decision D3): what a step does on an unknown opcode byte. -/
inductive UnknownPolicy where
  /-- the step is a fault and changes nothing -/
  | halt
  /-- PC advances by one and the boundary evaluation follows -/
  | skip
  deriving DecidableEq, Repr

/-- DECIMAL of R5 (R160, R161, decision D11): whether ADC and SBC honour the D flag. -/
inductive DecimalSupport where
  /-- the NMOS packed-decimal algorithms of R160 and R161 -/
  | nmos
  /-- D is stored and ignored -/
  | absent
  deriving DecidableEq, Repr

/-- RESET_NMI of R5 (R40, decision D19): what reset does to `nmi_pending`. -/
inductive ResetNmi where
  /-- reset clears the latch -/
  | clear
  /-- reset leaves the latch -/
  | keep
  /-- the latch after reset is a draw -/
  | any
  deriving DecidableEq, Repr

/-- A range of addresses, both ends included, on which the platform installs something other than plain
RAM (R58, R65). -/
structure AddrRange where
  first : Nat
  last : Nat
  deriving DecidableEq, Repr

/-- The parameters that R5 marks OPEN, fixed for a machine: no step and no operation of the environment
changes them. The memory environment's share is R65's predicate PlainRam, held as the ranges that are NOT
plain RAM. -/
structure Params where
  /-- UNKNOWN_POLICY -/
  unknownPolicy : UnknownPolicy
  /-- DECIMAL -/
  decimal : DecimalSupport
  /-- IRQ_ENABLED(s) holds of every source outside this list (log entry 7) -/
  irqDisabled : List IrqSource
  /-- IRQ_AUTOACK(s) holds of every source in this list -/
  irqAutoAck : List IrqSource
  /-- RESET_NMI -/
  resetNmi : ResetNmi
  /-- UNKNOWN_CYCLES, timing only -/
  unknownCycles : Nat
  /-- the addresses that are not PlainRam -/
  hooked : List AddrRange
  deriving DecidableEq, Repr

/-- The signalling operations a peripheral may perform, between steps or from inside a hook
(R235, R236, R237). `reset` is not among them: R235 admits it between steps only. -/
inductive LineOp where
  | activate (s : IrqSource)
  | deactivate (s : IrqSource)
  | nmiRaise
  | nmiClear
  deriving DecidableEq, Repr

/-- FREE VALUE (log entry 3): the byte the environment answers to the n-th access at an address that is not
plain RAM (R60, R62, R65: "For all other addresses the answer is free"). No body, so no proof knows it. -/
opaque Config.portByte : Nat → Byte

/-- FREE VALUE (log entry 3): the signalling operations performed by the hook of the n-th access at an address
that is not plain RAM, in order (R62, R235 (b)). No body, so no proof knows it. -/
opaque Config.hookOps : Nat → List LineOp

end Sys2Proof
end

