-- ==== Sys2Proof/Syntax.lean ====
section
/-! DEFINITION. The instructions as syntax: the thirteen addressing modes (`spec/40_addressing_modes.md`), the operand
forms, and the ONE inductive `Instr` (`spec/30_encoding.md` R86: 56 mnemonics; R88: the unknown bytes). The operand
an instruction carries is the assembled one of R82; a constructor covers all the rows of `spec/opcode_table.json`
that share its mnemonic, and its operand's form says which row. -/

namespace Sys2Proof

/-- The thirteen addressing modes (R83). -/
inductive Mode where
  | implied
  | accumulator
  | immediate
  | zeroPage
  | zeroPageX
  | zeroPageY
  | absolute
  | absoluteX
  | absoluteY
  | indirect
  | indexedIndirect
  | indirectIndexed
  | relative
  deriving DecidableEq, Repr

/-- The operand forms that resolve to the address of a data byte (R104 to R109, R111, R112). -/
inductive MemMode where
  | zeroPage (b : Byte)
  | zeroPageX (b : Byte)
  | zeroPageY (b : Byte)
  | absolute (w : Word)
  | absoluteX (w : Word)
  | absoluteY (w : Word)
  | indexedIndirect (b : Byte)
  | indirectIndexed (b : Byte)
  deriving DecidableEq, Repr

/-- The operand of a read instruction: a value in the instruction, or a byte in memory (R114 `OperandValue`). -/
inductive Source where
  | imm (v : Byte)
  | mem (m : MemMode)
  deriving DecidableEq, Repr

/-- The operand and destination of a shift or rotate: A, or a byte in memory (R177, R178). -/
inductive Target where
  | acc
  | mem (m : MemMode)
  deriving DecidableEq, Repr

/-- The operand of JMP: the target itself, or the address of a pointer to it (R107, R110, R191). -/
inductive JumpTarget where
  | absolute (w : Word)
  | indirect (w : Word)
  deriving DecidableEq, Repr

/-- The mode of a memory operand form. -/
def MemMode.mode : MemMode → Mode
  | .zeroPage _ => .zeroPage
  | .zeroPageX _ => .zeroPageX
  | .zeroPageY _ => .zeroPageY
  | .absolute _ => .absolute
  | .absoluteX _ => .absoluteX
  | .absoluteY _ => .absoluteY
  | .indexedIndirect _ => .indexedIndirect
  | .indirectIndexed _ => .indirectIndexed

/-- The mode of a read instruction's operand. -/
def Source.mode : Source → Mode
  | .imm _ => .immediate
  | .mem m => m.mode

/-- The mode of a shift's operand. -/
def Target.mode : Target → Mode
  | .acc => .accumulator
  | .mem m => m.mode

/-- The mode of a jump's operand. -/
def JumpTarget.mode : JumpTarget → Mode
  | .absolute _ => .absolute
  | .indirect _ => .indirect

/-- The 56 mnemonics of R86, as the opcode table's rows name them. -/
inductive Mnemonic where
  | adc | and | asl | bcc | bcs | beq | bit | bmi | bne | bpl | brk | bvc | bvs | clc
  | cld | cli | clv | cmp | cpx | cpy | dec | dex | dey | eor | inc | inx | iny | jmp
  | jsr | lda | ldx | ldy | lsr | nop | ora | pha | php | pla | plp | rol | ror | rti
  | rts | sbc | sec | sed | sei | sta | stx | sty | tax | tay | tsx | txa | txs | tya
  deriving DecidableEq, Repr

/-- The instructions. A branch carries its displacement byte, JSR its target (its one mode is Absolute). -/
inductive Instr where
  -- `spec/41_load_store_transfer.md`
  | lda (src : Source)
  | ldx (src : Source)
  | ldy (src : Source)
  | sta (m : MemMode)
  | stx (m : MemMode)
  | sty (m : MemMode)
  | tax
  | tay
  | txa
  | tya
  | tsx
  | txs
  -- `spec/42_stack.md`
  | pha
  | php
  | pla
  | plp
  -- `spec/43_alu.md`
  | and (src : Source)
  | ora (src : Source)
  | eor (src : Source)
  | bit (m : MemMode)
  | adc (src : Source)
  | sbc (src : Source)
  | cmp (src : Source)
  | cpx (src : Source)
  | cpy (src : Source)
  -- `spec/44_incdec_shift.md`
  | inc (m : MemMode)
  | dec (m : MemMode)
  | inx
  | iny
  | dex
  | dey
  | asl (t : Target)
  | lsr (t : Target)
  | rol (t : Target)
  | ror (t : Target)
  -- `spec/45_control_flow.md`
  | jmp (j : JumpTarget)
  | jsr (w : Word)
  | rts
  | rti
  | brk
  | bpl (d : Byte)
  | bmi (d : Byte)
  | bvc (d : Byte)
  | bvs (d : Byte)
  | bcc (d : Byte)
  | bcs (d : Byte)
  | bne (d : Byte)
  | beq (d : Byte)
  -- `spec/46_flags_nop.md`
  | clc
  | sec
  | cli
  | sei
  | clv
  | cld
  | sed
  | nop
  -- `spec/30_encoding.md` R88: one of the 105 bytes that have no descriptor
  | unknown (op : Byte)
  deriving DecidableEq, Repr

end Sys2Proof
end

