-- ==== Sys2Proof/WellFormed.lean ====
section
/-! DEFINITION. Which instructions exist: the modes each mnemonic may be used with (`spec/30_encoding.md` R86), and the
bytes that are unknown (R88). Every operand VALUE is legal (R89), so the check looks at forms only. -/

namespace Sys2Proof

/-- The 105 bytes without a descriptor, as R88 lists them. -/
def unknownOpcodes : List Byte :=
  [0x02#8, 0x03#8, 0x04#8, 0x07#8, 0x0B#8, 0x0C#8, 0x0F#8, 0x12#8, 0x13#8, 0x14#8, 0x17#8, 0x1A#8, 0x1B#8, 0x1C#8, 0x1F#8, 0x22#8, 0x23#8, 0x27#8, 0x2B#8, 0x2F#8, 0x32#8] ++
  [0x33#8, 0x34#8, 0x37#8, 0x3A#8, 0x3B#8, 0x3C#8, 0x3F#8, 0x42#8, 0x43#8, 0x44#8, 0x47#8, 0x4B#8, 0x4F#8, 0x52#8, 0x53#8, 0x54#8, 0x57#8, 0x5A#8, 0x5B#8, 0x5C#8, 0x5F#8] ++
  [0x62#8, 0x63#8, 0x64#8, 0x67#8, 0x6B#8, 0x6F#8, 0x72#8, 0x73#8, 0x74#8, 0x77#8, 0x7A#8, 0x7B#8, 0x7C#8, 0x7F#8, 0x80#8, 0x82#8, 0x83#8, 0x87#8, 0x89#8, 0x8B#8, 0x8F#8] ++
  [0x92#8, 0x93#8, 0x97#8, 0x9B#8, 0x9C#8, 0x9E#8, 0x9F#8, 0xA3#8, 0xA7#8, 0xAB#8, 0xAF#8, 0xB2#8, 0xB3#8, 0xB7#8, 0xBB#8, 0xBF#8, 0xC2#8, 0xC3#8, 0xC7#8, 0xCB#8, 0xCF#8] ++
  [0xD2#8, 0xD3#8, 0xD4#8, 0xD7#8, 0xDA#8, 0xDB#8, 0xDC#8, 0xDF#8, 0xE2#8, 0xE3#8, 0xE7#8, 0xEB#8, 0xEF#8, 0xF2#8, 0xF3#8, 0xF4#8, 0xF7#8, 0xFA#8, 0xFB#8, 0xFC#8, 0xFF#8]

/-- The eight modes of ADC, AND, CMP, EOR, LDA, ORA and SBC (R86). -/
def accumulatorReadModes : List Mode :=
  [.immediate, .zeroPage, .zeroPageX, .absolute, .absoluteX, .absoluteY, .indexedIndirect, .indirectIndexed]

/-- The four memory modes of the read-modify-write instructions (R170). -/
def modifyModes : List Mode := [.zeroPage, .zeroPageX, .absolute, .absoluteX]

/-- An instruction is well formed when R86 gives its mnemonic an encoding in its operand's mode; `unknown op` when
R88 lists `op`. -/
def Instr.wellFormed : Instr → Bool
  | .lda src => accumulatorReadModes.contains src.mode
  | .ldx src => [Mode.immediate, .zeroPage, .zeroPageY, .absolute, .absoluteY].contains src.mode
  | .ldy src => [Mode.immediate, .zeroPage, .zeroPageX, .absolute, .absoluteX].contains src.mode
  | .sta m =>
    [Mode.zeroPage, .zeroPageX, .absolute, .absoluteX, .absoluteY, .indexedIndirect, .indirectIndexed].contains m.mode
  | .stx m => [Mode.zeroPage, .zeroPageY, .absolute].contains m.mode
  | .sty m => [Mode.zeroPage, .zeroPageX, .absolute].contains m.mode
  | .tax => true
  | .tay => true
  | .txa => true
  | .tya => true
  | .tsx => true
  | .txs => true
  | .pha => true
  | .php => true
  | .pla => true
  | .plp => true
  | .and src => accumulatorReadModes.contains src.mode
  | .ora src => accumulatorReadModes.contains src.mode
  | .eor src => accumulatorReadModes.contains src.mode
  | .bit m => [Mode.zeroPage, .absolute].contains m.mode
  | .adc src => accumulatorReadModes.contains src.mode
  | .sbc src => accumulatorReadModes.contains src.mode
  | .cmp src => accumulatorReadModes.contains src.mode
  | .cpx src => [Mode.immediate, .zeroPage, .absolute].contains src.mode
  | .cpy src => [Mode.immediate, .zeroPage, .absolute].contains src.mode
  | .inc m => modifyModes.contains m.mode
  | .dec m => modifyModes.contains m.mode
  | .inx => true
  | .iny => true
  | .dex => true
  | .dey => true
  | .asl t => (Mode.accumulator :: modifyModes).contains t.mode
  | .lsr t => (Mode.accumulator :: modifyModes).contains t.mode
  | .rol t => (Mode.accumulator :: modifyModes).contains t.mode
  | .ror t => (Mode.accumulator :: modifyModes).contains t.mode
  | .jmp _ => true
  | .jsr _ => true
  | .rts => true
  | .rti => true
  | .brk => true
  | .bpl _ => true
  | .bmi _ => true
  | .bvc _ => true
  | .bvs _ => true
  | .bcc _ => true
  | .bcs _ => true
  | .bne _ => true
  | .beq _ => true
  | .clc => true
  | .sec => true
  | .cli => true
  | .sei => true
  | .clv => true
  | .cld => true
  | .sed => true
  | .nop => true
  | .unknown op => unknownOpcodes.contains op

end Sys2Proof
end

