-- ==== Sys2Proof/Decode.lean ====
section
/-! DEFINITION. The decoder and the encoder, both written from the opcode map of `spec/30_encoding.md` R85, R86 (one row
for each of the 151 legal bytes; the row's cycle numbers are those of R86, timing only), and the byte-order helpers
of `spec/00_scope.md` R6. -/

namespace Sys2Proof

/-- `hi(w) = w[15:8]` (R6). -/
def hi (w : Word) : Byte := w.extractLsb' 8 8

/-- `lo(w) = w[7:0]` (R6). -/
def lo (w : Word) : Byte := w.extractLsb' 0 8

/-- `h:l`, the value `256*h + l` (R6). -/
def word (h l : Byte) : Word := h ++ l

/-- A word as it lies in the instruction stream and in memory: little-endian (R51). -/
def wordBytes (w : Word) : List Byte := [lo w, hi w]

/-- The size in bytes that a mode gives its instruction (R83). -/
def Mode.size : Mode → Nat
  | .implied => 1
  | .accumulator => 1
  | .immediate => 2
  | .zeroPage => 2
  | .zeroPageX => 2
  | .zeroPageY => 2
  | .indexedIndirect => 2
  | .indirectIndexed => 2
  | .relative => 2
  | .absolute => 3
  | .absoluteX => 3
  | .absoluteY => 3
  | .indirect => 3

/-- The descriptor of one legal opcode byte (R83): `crossCycle` marks the encodings `+p` of R86. -/
structure OpRow where
  opcode : Byte
  mnemonic : Mnemonic
  mode : Mode
  cycles : Nat
  crossCycle : Bool
  deriving DecidableEq, Repr

/-- Row 0x of the matrix of R85. -/
def rows0 : List OpRow :=
  [⟨0x00#8, .brk, .implied, 7, false⟩,
   ⟨0x01#8, .ora, .indexedIndirect, 6, false⟩,
   ⟨0x05#8, .ora, .zeroPage, 3, false⟩,
   ⟨0x06#8, .asl, .zeroPage, 5, false⟩,
   ⟨0x08#8, .php, .implied, 3, false⟩,
   ⟨0x09#8, .ora, .immediate, 2, false⟩,
   ⟨0x0A#8, .asl, .accumulator, 2, false⟩,
   ⟨0x0D#8, .ora, .absolute, 4, false⟩,
   ⟨0x0E#8, .asl, .absolute, 6, false⟩]

/-- Row 1x of the matrix of R85. -/
def rows1 : List OpRow :=
  [⟨0x10#8, .bpl, .relative, 2, false⟩,
   ⟨0x11#8, .ora, .indirectIndexed, 5, true⟩,
   ⟨0x15#8, .ora, .zeroPageX, 4, false⟩,
   ⟨0x16#8, .asl, .zeroPageX, 6, false⟩,
   ⟨0x18#8, .clc, .implied, 2, false⟩,
   ⟨0x19#8, .ora, .absoluteY, 4, true⟩,
   ⟨0x1D#8, .ora, .absoluteX, 4, true⟩,
   ⟨0x1E#8, .asl, .absoluteX, 7, false⟩]

/-- Row 2x of the matrix of R85. -/
def rows2 : List OpRow :=
  [⟨0x20#8, .jsr, .absolute, 6, false⟩,
   ⟨0x21#8, .and, .indexedIndirect, 6, false⟩,
   ⟨0x24#8, .bit, .zeroPage, 3, false⟩,
   ⟨0x25#8, .and, .zeroPage, 3, false⟩,
   ⟨0x26#8, .rol, .zeroPage, 5, false⟩,
   ⟨0x28#8, .plp, .implied, 4, false⟩,
   ⟨0x29#8, .and, .immediate, 2, false⟩,
   ⟨0x2A#8, .rol, .accumulator, 2, false⟩,
   ⟨0x2C#8, .bit, .absolute, 4, false⟩,
   ⟨0x2D#8, .and, .absolute, 4, false⟩,
   ⟨0x2E#8, .rol, .absolute, 6, false⟩]

/-- Row 3x of the matrix of R85. -/
def rows3 : List OpRow :=
  [⟨0x30#8, .bmi, .relative, 2, false⟩,
   ⟨0x31#8, .and, .indirectIndexed, 5, true⟩,
   ⟨0x35#8, .and, .zeroPageX, 4, false⟩,
   ⟨0x36#8, .rol, .zeroPageX, 6, false⟩,
   ⟨0x38#8, .sec, .implied, 2, false⟩,
   ⟨0x39#8, .and, .absoluteY, 4, true⟩,
   ⟨0x3D#8, .and, .absoluteX, 4, true⟩,
   ⟨0x3E#8, .rol, .absoluteX, 7, false⟩]

/-- Row 4x of the matrix of R85. -/
def rows4 : List OpRow :=
  [⟨0x40#8, .rti, .implied, 6, false⟩,
   ⟨0x41#8, .eor, .indexedIndirect, 6, false⟩,
   ⟨0x45#8, .eor, .zeroPage, 3, false⟩,
   ⟨0x46#8, .lsr, .zeroPage, 5, false⟩,
   ⟨0x48#8, .pha, .implied, 3, false⟩,
   ⟨0x49#8, .eor, .immediate, 2, false⟩,
   ⟨0x4A#8, .lsr, .accumulator, 2, false⟩,
   ⟨0x4C#8, .jmp, .absolute, 3, false⟩,
   ⟨0x4D#8, .eor, .absolute, 4, false⟩,
   ⟨0x4E#8, .lsr, .absolute, 6, false⟩]

/-- Row 5x of the matrix of R85. -/
def rows5 : List OpRow :=
  [⟨0x50#8, .bvc, .relative, 2, false⟩,
   ⟨0x51#8, .eor, .indirectIndexed, 5, true⟩,
   ⟨0x55#8, .eor, .zeroPageX, 4, false⟩,
   ⟨0x56#8, .lsr, .zeroPageX, 6, false⟩,
   ⟨0x58#8, .cli, .implied, 2, false⟩,
   ⟨0x59#8, .eor, .absoluteY, 4, true⟩,
   ⟨0x5D#8, .eor, .absoluteX, 4, true⟩,
   ⟨0x5E#8, .lsr, .absoluteX, 7, false⟩]

/-- Row 6x of the matrix of R85. -/
def rows6 : List OpRow :=
  [⟨0x60#8, .rts, .implied, 6, false⟩,
   ⟨0x61#8, .adc, .indexedIndirect, 6, false⟩,
   ⟨0x65#8, .adc, .zeroPage, 3, false⟩,
   ⟨0x66#8, .ror, .zeroPage, 5, false⟩,
   ⟨0x68#8, .pla, .implied, 4, false⟩,
   ⟨0x69#8, .adc, .immediate, 2, false⟩,
   ⟨0x6A#8, .ror, .accumulator, 2, false⟩,
   ⟨0x6C#8, .jmp, .indirect, 5, false⟩,
   ⟨0x6D#8, .adc, .absolute, 4, false⟩,
   ⟨0x6E#8, .ror, .absolute, 6, false⟩]

/-- Row 7x of the matrix of R85. -/
def rows7 : List OpRow :=
  [⟨0x70#8, .bvs, .relative, 2, false⟩,
   ⟨0x71#8, .adc, .indirectIndexed, 5, true⟩,
   ⟨0x75#8, .adc, .zeroPageX, 4, false⟩,
   ⟨0x76#8, .ror, .zeroPageX, 6, false⟩,
   ⟨0x78#8, .sei, .implied, 2, false⟩,
   ⟨0x79#8, .adc, .absoluteY, 4, true⟩,
   ⟨0x7D#8, .adc, .absoluteX, 4, true⟩,
   ⟨0x7E#8, .ror, .absoluteX, 7, false⟩]

/-- Row 8x of the matrix of R85. -/
def rows8 : List OpRow :=
  [⟨0x81#8, .sta, .indexedIndirect, 6, false⟩,
   ⟨0x84#8, .sty, .zeroPage, 3, false⟩,
   ⟨0x85#8, .sta, .zeroPage, 3, false⟩,
   ⟨0x86#8, .stx, .zeroPage, 3, false⟩,
   ⟨0x88#8, .dey, .implied, 2, false⟩,
   ⟨0x8A#8, .txa, .implied, 2, false⟩,
   ⟨0x8C#8, .sty, .absolute, 4, false⟩,
   ⟨0x8D#8, .sta, .absolute, 4, false⟩,
   ⟨0x8E#8, .stx, .absolute, 4, false⟩]

/-- Row 9x of the matrix of R85. -/
def rows9 : List OpRow :=
  [⟨0x90#8, .bcc, .relative, 2, false⟩,
   ⟨0x91#8, .sta, .indirectIndexed, 6, false⟩,
   ⟨0x94#8, .sty, .zeroPageX, 4, false⟩,
   ⟨0x95#8, .sta, .zeroPageX, 4, false⟩,
   ⟨0x96#8, .stx, .zeroPageY, 4, false⟩,
   ⟨0x98#8, .tya, .implied, 2, false⟩,
   ⟨0x99#8, .sta, .absoluteY, 5, false⟩,
   ⟨0x9A#8, .txs, .implied, 2, false⟩,
   ⟨0x9D#8, .sta, .absoluteX, 5, false⟩]

/-- Row Ax of the matrix of R85. -/
def rowsA : List OpRow :=
  [⟨0xA0#8, .ldy, .immediate, 2, false⟩,
   ⟨0xA1#8, .lda, .indexedIndirect, 6, false⟩,
   ⟨0xA2#8, .ldx, .immediate, 2, false⟩,
   ⟨0xA4#8, .ldy, .zeroPage, 3, false⟩,
   ⟨0xA5#8, .lda, .zeroPage, 3, false⟩,
   ⟨0xA6#8, .ldx, .zeroPage, 3, false⟩,
   ⟨0xA8#8, .tay, .implied, 2, false⟩,
   ⟨0xA9#8, .lda, .immediate, 2, false⟩,
   ⟨0xAA#8, .tax, .implied, 2, false⟩,
   ⟨0xAC#8, .ldy, .absolute, 4, false⟩,
   ⟨0xAD#8, .lda, .absolute, 4, false⟩,
   ⟨0xAE#8, .ldx, .absolute, 4, false⟩]

/-- Row Bx of the matrix of R85. -/
def rowsB : List OpRow :=
  [⟨0xB0#8, .bcs, .relative, 2, false⟩,
   ⟨0xB1#8, .lda, .indirectIndexed, 5, true⟩,
   ⟨0xB4#8, .ldy, .zeroPageX, 4, false⟩,
   ⟨0xB5#8, .lda, .zeroPageX, 4, false⟩,
   ⟨0xB6#8, .ldx, .zeroPageY, 4, false⟩,
   ⟨0xB8#8, .clv, .implied, 2, false⟩,
   ⟨0xB9#8, .lda, .absoluteY, 4, true⟩,
   ⟨0xBA#8, .tsx, .implied, 2, false⟩,
   ⟨0xBC#8, .ldy, .absoluteX, 4, true⟩,
   ⟨0xBD#8, .lda, .absoluteX, 4, true⟩,
   ⟨0xBE#8, .ldx, .absoluteY, 4, true⟩]

/-- Row Cx of the matrix of R85. -/
def rowsC : List OpRow :=
  [⟨0xC0#8, .cpy, .immediate, 2, false⟩,
   ⟨0xC1#8, .cmp, .indexedIndirect, 6, false⟩,
   ⟨0xC4#8, .cpy, .zeroPage, 3, false⟩,
   ⟨0xC5#8, .cmp, .zeroPage, 3, false⟩,
   ⟨0xC6#8, .dec, .zeroPage, 5, false⟩,
   ⟨0xC8#8, .iny, .implied, 2, false⟩,
   ⟨0xC9#8, .cmp, .immediate, 2, false⟩,
   ⟨0xCA#8, .dex, .implied, 2, false⟩,
   ⟨0xCC#8, .cpy, .absolute, 4, false⟩,
   ⟨0xCD#8, .cmp, .absolute, 4, false⟩,
   ⟨0xCE#8, .dec, .absolute, 6, false⟩]

/-- Row Dx of the matrix of R85. -/
def rowsD : List OpRow :=
  [⟨0xD0#8, .bne, .relative, 2, false⟩,
   ⟨0xD1#8, .cmp, .indirectIndexed, 5, true⟩,
   ⟨0xD5#8, .cmp, .zeroPageX, 4, false⟩,
   ⟨0xD6#8, .dec, .zeroPageX, 6, false⟩,
   ⟨0xD8#8, .cld, .implied, 2, false⟩,
   ⟨0xD9#8, .cmp, .absoluteY, 4, true⟩,
   ⟨0xDD#8, .cmp, .absoluteX, 4, true⟩,
   ⟨0xDE#8, .dec, .absoluteX, 7, false⟩]

/-- Row Ex of the matrix of R85. -/
def rowsE : List OpRow :=
  [⟨0xE0#8, .cpx, .immediate, 2, false⟩,
   ⟨0xE1#8, .sbc, .indexedIndirect, 6, false⟩,
   ⟨0xE4#8, .cpx, .zeroPage, 3, false⟩,
   ⟨0xE5#8, .sbc, .zeroPage, 3, false⟩,
   ⟨0xE6#8, .inc, .zeroPage, 5, false⟩,
   ⟨0xE8#8, .inx, .implied, 2, false⟩,
   ⟨0xE9#8, .sbc, .immediate, 2, false⟩,
   ⟨0xEA#8, .nop, .implied, 2, false⟩,
   ⟨0xEC#8, .cpx, .absolute, 4, false⟩,
   ⟨0xED#8, .sbc, .absolute, 4, false⟩,
   ⟨0xEE#8, .inc, .absolute, 6, false⟩]

/-- Row Fx of the matrix of R85. -/
def rowsF : List OpRow :=
  [⟨0xF0#8, .beq, .relative, 2, false⟩,
   ⟨0xF1#8, .sbc, .indirectIndexed, 5, true⟩,
   ⟨0xF5#8, .sbc, .zeroPageX, 4, false⟩,
   ⟨0xF6#8, .inc, .zeroPageX, 6, false⟩,
   ⟨0xF8#8, .sed, .implied, 2, false⟩,
   ⟨0xF9#8, .sbc, .absoluteY, 4, true⟩,
   ⟨0xFD#8, .sbc, .absoluteX, 4, true⟩,
   ⟨0xFE#8, .inc, .absoluteX, 7, false⟩]

/-- The opcode map: 151 descriptors (R85, R86). -/
def opcodeTable : List OpRow :=
  rows0 ++ rows1 ++ rows2 ++ rows3 ++ rows4 ++ rows5 ++ rows6 ++ rows7 ++
  rows8 ++ rows9 ++ rowsA ++ rowsB ++ rowsC ++ rowsD ++ rowsE ++ rowsF

/-- The decoder's lookup, total on the 256 bytes: a descriptor, or none (R84). -/
def rowOfByte (op : Byte) : Option OpRow :=
  opcodeTable.find? (fun r => r.opcode == op)

/-- The encoder's lookup: the one row with this mnemonic and mode (R87 (2)). -/
def rowOfForm (m : Mnemonic) (md : Mode) : Option OpRow :=
  opcodeTable.find? (fun r => r.mnemonic == m && r.mode == md)

/-- How a memory mode reads its operand field (R82). -/
def MemMode.ofMode (md : Mode) (b1 b2 : Byte) : Option MemMode :=
  match md with
  | .zeroPage => some (.zeroPage b1)
  | .zeroPageX => some (.zeroPageX b1)
  | .zeroPageY => some (.zeroPageY b1)
  | .absolute => some (.absolute (word b2 b1))
  | .absoluteX => some (.absoluteX (word b2 b1))
  | .absoluteY => some (.absoluteY (word b2 b1))
  | .indexedIndirect => some (.indexedIndirect b1)
  | .indirectIndexed => some (.indirectIndexed b1)
  | .implied => none
  | .accumulator => none
  | .immediate => none
  | .indirect => none
  | .relative => none

/-- The operand of a read instruction (R82): Immediate is the byte itself. -/
def Source.ofMode (md : Mode) (b1 b2 : Byte) : Option Source :=
  if md = .immediate then some (.imm b1) else (MemMode.ofMode md b1 b2).map .mem

/-- The operand of a shift (R178): Accumulator fetches nothing. -/
def Target.ofMode (md : Mode) (b1 b2 : Byte) : Option Target :=
  if md = .accumulator then some .acc else (MemMode.ofMode md b1 b2).map .mem

/-- The operand of JMP (R82). -/
def JumpTarget.ofMode (md : Mode) (b1 b2 : Byte) : Option JumpTarget :=
  if md = .absolute then some (.absolute (word b2 b1))
  else if md = .indirect then some (.indirect (word b2 b1))
  else none

/-- The instruction of a descriptor and the operand bytes; none where the mnemonic has no such mode. -/
def assemble (m : Mnemonic) (md : Mode) (b1 b2 : Byte) : Option Instr :=
  match m with
  | .lda => (Source.ofMode md b1 b2).map .lda
  | .ldx => (Source.ofMode md b1 b2).map .ldx
  | .ldy => (Source.ofMode md b1 b2).map .ldy
  | .sta => (MemMode.ofMode md b1 b2).map .sta
  | .stx => (MemMode.ofMode md b1 b2).map .stx
  | .sty => (MemMode.ofMode md b1 b2).map .sty
  | .tax => if md = .implied then some .tax else none
  | .tay => if md = .implied then some .tay else none
  | .txa => if md = .implied then some .txa else none
  | .tya => if md = .implied then some .tya else none
  | .tsx => if md = .implied then some .tsx else none
  | .txs => if md = .implied then some .txs else none
  | .pha => if md = .implied then some .pha else none
  | .php => if md = .implied then some .php else none
  | .pla => if md = .implied then some .pla else none
  | .plp => if md = .implied then some .plp else none
  | .and => (Source.ofMode md b1 b2).map .and
  | .ora => (Source.ofMode md b1 b2).map .ora
  | .eor => (Source.ofMode md b1 b2).map .eor
  | .bit => (MemMode.ofMode md b1 b2).map .bit
  | .adc => (Source.ofMode md b1 b2).map .adc
  | .sbc => (Source.ofMode md b1 b2).map .sbc
  | .cmp => (Source.ofMode md b1 b2).map .cmp
  | .cpx => (Source.ofMode md b1 b2).map .cpx
  | .cpy => (Source.ofMode md b1 b2).map .cpy
  | .inc => (MemMode.ofMode md b1 b2).map .inc
  | .dec => (MemMode.ofMode md b1 b2).map .dec
  | .inx => if md = .implied then some .inx else none
  | .iny => if md = .implied then some .iny else none
  | .dex => if md = .implied then some .dex else none
  | .dey => if md = .implied then some .dey else none
  | .asl => (Target.ofMode md b1 b2).map .asl
  | .lsr => (Target.ofMode md b1 b2).map .lsr
  | .rol => (Target.ofMode md b1 b2).map .rol
  | .ror => (Target.ofMode md b1 b2).map .ror
  | .jmp => (JumpTarget.ofMode md b1 b2).map .jmp
  | .jsr => if md = .absolute then some (.jsr (word b2 b1)) else none
  | .rts => if md = .implied then some .rts else none
  | .rti => if md = .implied then some .rti else none
  | .brk => if md = .implied then some .brk else none
  | .bpl => if md = .relative then some (.bpl b1) else none
  | .bmi => if md = .relative then some (.bmi b1) else none
  | .bvc => if md = .relative then some (.bvc b1) else none
  | .bvs => if md = .relative then some (.bvs b1) else none
  | .bcc => if md = .relative then some (.bcc b1) else none
  | .bcs => if md = .relative then some (.bcs b1) else none
  | .bne => if md = .relative then some (.bne b1) else none
  | .beq => if md = .relative then some (.beq b1) else none
  | .clc => if md = .implied then some .clc else none
  | .sec => if md = .implied then some .sec else none
  | .cli => if md = .implied then some .cli else none
  | .sei => if md = .implied then some .sei else none
  | .clv => if md = .implied then some .clv else none
  | .cld => if md = .implied then some .cld else none
  | .sed => if md = .implied then some .sed else none
  | .nop => if md = .implied then some .nop else none

/-- The decoder on an opcode byte and the two bytes after it, of which it uses as many as the size says (R82, R84):
the row's instruction, or `unknown` where there is no row (R88). -/
def decodeBytes (op b1 b2 : Byte) : Instr :=
  match rowOfByte op with
  | some r => (assemble r.mnemonic r.mode b1 b2).getD (.unknown op)
  | none => .unknown op

/-- The length of the instruction whose opcode byte this is: a function of that byte alone (R80). An unknown byte
stands alone (R88: no operand byte is read). -/
def sizeOfByte (op : Byte) : Nat :=
  match rowOfByte op with
  | some r => r.mode.size
  | none => 1

/-- Why a list of bytes is no instruction: it ends too soon. No BYTE VALUE is refused (R84). -/
inductive DecodeRefusal where
  /-- there is no opcode byte -/
  | noBytes
  /-- the opcode byte asks for operand bytes that are not there -/
  | missingOperand (op : Byte)
  deriving DecidableEq, Repr

/-- What decoding a list of bytes gives. -/
inductive Decoded where
  | ok (i : Instr) (rest : List Byte)
  | refused (r : DecodeRefusal)
  deriving DecidableEq, Repr

/-- Decoding, total on any list of bytes: the first instruction and the bytes after it. -/
def decode : List Byte → Decoded
  | [] => .refused .noBytes
  | op :: rest =>
    if rest.length + 1 < sizeOfByte op then .refused (.missingOperand op)
    else .ok (decodeBytes op (rest.getD 0 0) (rest.getD 1 0)) (rest.drop (sizeOfByte op - 1))

/-- The mode an instruction is written in; an unknown byte counts as Implied (nothing follows it). -/
def Instr.mode : Instr → Mode
  | .lda src => src.mode
  | .ldx src => src.mode
  | .ldy src => src.mode
  | .sta m => m.mode
  | .stx m => m.mode
  | .sty m => m.mode
  | .tax => .implied
  | .tay => .implied
  | .txa => .implied
  | .tya => .implied
  | .tsx => .implied
  | .txs => .implied
  | .pha => .implied
  | .php => .implied
  | .pla => .implied
  | .plp => .implied
  | .and src => src.mode
  | .ora src => src.mode
  | .eor src => src.mode
  | .bit m => m.mode
  | .adc src => src.mode
  | .sbc src => src.mode
  | .cmp src => src.mode
  | .cpx src => src.mode
  | .cpy src => src.mode
  | .inc m => m.mode
  | .dec m => m.mode
  | .inx => .implied
  | .iny => .implied
  | .dex => .implied
  | .dey => .implied
  | .asl t => t.mode
  | .lsr t => t.mode
  | .rol t => t.mode
  | .ror t => t.mode
  | .jmp j => j.mode
  | .jsr _ => .absolute
  | .rts => .implied
  | .rti => .implied
  | .brk => .implied
  | .bpl _ => .relative
  | .bmi _ => .relative
  | .bvc _ => .relative
  | .bvs _ => .relative
  | .bcc _ => .relative
  | .bcs _ => .relative
  | .bne _ => .relative
  | .beq _ => .relative
  | .clc => .implied
  | .sec => .implied
  | .cli => .implied
  | .sei => .implied
  | .clv => .implied
  | .cld => .implied
  | .sed => .implied
  | .nop => .implied
  | .unknown _ => .implied

/-- The mnemonic of an instruction; an unknown byte has none. -/
def Instr.mnemonic : Instr → Option Mnemonic
  | .lda _ => some .lda
  | .ldx _ => some .ldx
  | .ldy _ => some .ldy
  | .sta _ => some .sta
  | .stx _ => some .stx
  | .sty _ => some .sty
  | .tax => some .tax
  | .tay => some .tay
  | .txa => some .txa
  | .tya => some .tya
  | .tsx => some .tsx
  | .txs => some .txs
  | .pha => some .pha
  | .php => some .php
  | .pla => some .pla
  | .plp => some .plp
  | .and _ => some .and
  | .ora _ => some .ora
  | .eor _ => some .eor
  | .bit _ => some .bit
  | .adc _ => some .adc
  | .sbc _ => some .sbc
  | .cmp _ => some .cmp
  | .cpx _ => some .cpx
  | .cpy _ => some .cpy
  | .inc _ => some .inc
  | .dec _ => some .dec
  | .inx => some .inx
  | .iny => some .iny
  | .dex => some .dex
  | .dey => some .dey
  | .asl _ => some .asl
  | .lsr _ => some .lsr
  | .rol _ => some .rol
  | .ror _ => some .ror
  | .jmp _ => some .jmp
  | .jsr _ => some .jsr
  | .rts => some .rts
  | .rti => some .rti
  | .brk => some .brk
  | .bpl _ => some .bpl
  | .bmi _ => some .bmi
  | .bvc _ => some .bvc
  | .bvs _ => some .bvs
  | .bcc _ => some .bcc
  | .bcs _ => some .bcs
  | .bne _ => some .bne
  | .beq _ => some .beq
  | .clc => some .clc
  | .sec => some .sec
  | .cli => some .cli
  | .sei => some .sei
  | .clv => some .clv
  | .cld => some .cld
  | .sed => some .sed
  | .nop => some .nop
  | .unknown _ => none

/-- The operand bytes of a memory mode, in stream order (R81). -/
def MemMode.bytes : MemMode → List Byte
  | .zeroPage b => [b]
  | .zeroPageX b => [b]
  | .zeroPageY b => [b]
  | .absolute w => wordBytes w
  | .absoluteX w => wordBytes w
  | .absoluteY w => wordBytes w
  | .indexedIndirect b => [b]
  | .indirectIndexed b => [b]

/-- The operand bytes of a read instruction's operand. -/
def Source.bytes : Source → List Byte
  | .imm v => [v]
  | .mem m => m.bytes

/-- The operand bytes of a shift's operand. -/
def Target.bytes : Target → List Byte
  | .acc => []
  | .mem m => m.bytes

/-- The operand bytes of a jump's operand. -/
def JumpTarget.bytes : JumpTarget → List Byte
  | .absolute w => wordBytes w
  | .indirect w => wordBytes w

/-- The operand bytes of an instruction, in stream order (R81). -/
def Instr.operandBytes : Instr → List Byte
  | .lda src => src.bytes
  | .ldx src => src.bytes
  | .ldy src => src.bytes
  | .sta m => m.bytes
  | .stx m => m.bytes
  | .sty m => m.bytes
  | .tax => []
  | .tay => []
  | .txa => []
  | .tya => []
  | .tsx => []
  | .txs => []
  | .pha => []
  | .php => []
  | .pla => []
  | .plp => []
  | .and src => src.bytes
  | .ora src => src.bytes
  | .eor src => src.bytes
  | .bit m => m.bytes
  | .adc src => src.bytes
  | .sbc src => src.bytes
  | .cmp src => src.bytes
  | .cpx src => src.bytes
  | .cpy src => src.bytes
  | .inc m => m.bytes
  | .dec m => m.bytes
  | .inx => []
  | .iny => []
  | .dex => []
  | .dey => []
  | .asl t => t.bytes
  | .lsr t => t.bytes
  | .rol t => t.bytes
  | .ror t => t.bytes
  | .jmp j => j.bytes
  | .jsr w => wordBytes w
  | .rts => []
  | .rti => []
  | .brk => []
  | .bpl d => [d]
  | .bmi d => [d]
  | .bvc d => [d]
  | .bvs d => [d]
  | .bcc d => [d]
  | .bcs d => [d]
  | .bne d => [d]
  | .beq d => [d]
  | .clc => []
  | .sec => []
  | .cli => []
  | .sei => []
  | .clv => []
  | .cld => []
  | .sed => []
  | .nop => []
  | .unknown _ => []

/-- The descriptor of an instruction's form; none for an unknown byte and for an ill-formed term. -/
def Instr.row (i : Instr) : Option OpRow :=
  match i.mnemonic with
  | some m => rowOfForm m i.mode
  | none => none

/-- The size in bytes of an instruction (R80, R83); an unknown byte is skipped alone (R88). -/
def Instr.size (i : Instr) : Nat := i.mode.size

/-- The bytes of a well-formed instruction (R81, R86): opcode byte, then operand bytes. An ill-formed term has none. -/
def encode (i : Instr) : List Byte :=
  match i with
  | .unknown op => if rowOfByte op = none then [op] else []
  | _ =>
    match i.row with
    | some r => r.opcode :: i.operandBytes
    | none => []

/-- The first three bytes of a table word: bit 0 is the least significant bit of the opcode byte, the second byte is
bits 15..8, and every bit from `nbits` up is 0. -/
def tableWordBytes (nbits w : Nat) : List Byte :=
  let v := w % 2 ^ nbits
  [BitVec.ofNat 8 v, BitVec.ofNat 8 (v / 256), BitVec.ofNat 8 (v / 65536)]

/-- The instruction that the decoder reads from a table word. -/
def decodeTableWord (nbits w : Nat) : Option Instr :=
  match decode (tableWordBytes nbits w) with
  | .ok i _ => some i
  | .refused _ => none

end Sys2Proof
end

