-- ==== Sys2Proof/Machine/Memory.lean ====
section
/-! DEFINITION. The 64 KiB byte space of `spec/20_memory.md` R50 as a list of (address, byte) pairs in one canonical form,
and the canonical sets of interrupt sources (`spec/10_state.md` R38). -/

namespace Sys2Proof.Machine

/-- The contents of the plain RAM addresses (R65, R66). -/
abbrev Memory := List Host.Cell

/-- What an address that nothing has written reads as: zero, the reference environment of R66 (log entry 1). -/
def Memory.unlisted : Byte := 0#8

/-- The byte at an address. -/
def Memory.read : Memory → Nat → Byte
  | [], _ => Memory.unlisted
  | (k, v) :: m, a => if k = a then v else Memory.read m a

/-- A cell put before the first cell with a higher address. -/
def Memory.insertCell : Memory → Nat → Byte → Memory
  | [], a, v => [(a, v)]
  | (k, w) :: m, a, v => if a < k then (a, v) :: (k, w) :: m else (k, w) :: Memory.insertCell m a v

/-- The memory with one byte replaced: the address's old cell goes, and a new one is listed unless the byte is what an
unlisted address reads as. The canonical form is kept. -/
def Memory.write (m : Memory) (a : Nat) (v : Byte) : Memory :=
  let m' := m.filter (fun c => c.1 != a)
  if v = Memory.unlisted then m' else Memory.insertCell m' a v

/-- Addresses strictly rising from `b`, all below 65536, and no byte equal to what an unlisted address reads as. -/
def Memory.risingFrom : Nat → Memory → Bool
  | _, [] => true
  | b, (k, v) :: m => decide (b ≤ k) && decide (k < 65536) && decide (v ≠ Memory.unlisted) && Memory.risingFrom (k + 1) m

/-- The canonical form of a memory. -/
def Memory.wf (m : Memory) : Bool := Memory.risingFrom 0 m

/-- A finite set of interrupt sources, as the list of its elements strictly rising. -/
abbrev SourceSet := List IrqSource

/-- Strictly rising from `b`. -/
def SourceSet.risingFrom : Nat → SourceSet → Bool
  | _, [] => true
  | b, s :: l => decide (b ≤ s) && SourceSet.risingFrom (s + 1) l

/-- The canonical form of a set of sources. -/
def SourceSet.wf (l : SourceSet) : Bool := SourceSet.risingFrom 0 l

/-- `l ∪ {s}` (R236). -/
def SourceSet.insert : SourceSet → IrqSource → SourceSet
  | [], s => [s]
  | t :: l, s => if s < t then s :: t :: l else if s = t then t :: l else t :: SourceSet.insert l s

/-- `l \ {s}` (R236). -/
def SourceSet.erase (l : SourceSet) (s : IrqSource) : SourceSet := l.filter (fun t => t != s)

end Sys2Proof.Machine
end

