-- ==== Sys2Proof/Machine/State.lean ====
section
/-! DEFINITION. The state of the core (`spec/10_state.md` R20), the step's outputs (`spec/00_scope.md` R12), the environment's
share of the state (memory contents, parameters, draw counter), the reasons a step can stop, and the state after reset. -/

namespace Sys2Proof.Machine

/-- The six stored flags of the status word P (R26). Bits 5 and 4 are not storage (R32). -/
structure Flags where
  n : Bool
  v : Bool
  d : Bool
  i : Bool
  z : Bool
  c : Bool
  deriving DecidableEq, Repr

/-- `run_state` (R36). -/
inductive RunState where
  | idle
  | running
  deriving DecidableEq, Repr

/-- The interrupt bookkeeping (R37, R38). -/
structure Lines where
  /-- the level last driven on the NMI input -/
  nmiLine : Bool
  /-- the edge latch of the NMI input -/
  nmiPending : Bool
  /-- the IRQ sources currently active, strictly rising -/
  irqActive : SourceSet
  deriving DecidableEq, Repr

/-- The two services of the boundary evaluation (R239). -/
inductive Interrupt where
  | nmi
  | irq
  deriving DecidableEq, Repr

/-- A signalled outcome of a step (R12, R232). -/
inductive Signal where
  | unknownOpcode (byte : Byte) (addr : Word)
  | brkExecuted
  | serviced (k : Interrupt)
  deriving DecidableEq, Repr

/-- One byte access on the memory port (R7, R54), with the byte that moved. -/
inductive Access where
  | read (a : Word) (v : Byte)
  | write (a : Word) (v : Byte)
  deriving DecidableEq, Repr

/-- What the latest step (or reset) put out (R12): no rule reads any of it (R280). The model's own record, not
state of the core (R39; log entry 8). -/
structure StepOutput where
  /-- the cycle number of the step, timing only -/
  cycles : Nat
  /-- the signalled outcomes, in order -/
  outcomes : List Signal
  /-- the accesses on the memory port, in order -/
  accesses : List Access
  deriving DecidableEq, Repr

/-- The machine. -/
structure State where
  /-- accumulator (R21) -/
  a : Byte
  /-- index register X (R22) -/
  x : Byte
  /-- index register Y (R23) -/
  y : Byte
  /-- stack pointer (R24) -/
  sp : Byte
  /-- program counter (R25) -/
  pc : Word
  /-- the stored flags of P (R26 to R34) -/
  flags : Flags
  /-- `run_state` (R36) -/
  run : RunState
  /-- `nmi_line`, `nmi_pending`, `irq_active` (R37, R38) -/
  lines : Lines
  /-- the contents of the environment's plain RAM (R50, R65, R66) -/
  mem : Memory
  /-- the open parameters, which nothing changes (R5; log entry 4) -/
  params : Params
  /-- how many free values of the environment have been drawn: the model's own counter (log entry 3) -/
  draws : Nat
  /-- the outputs of the latest step (R12; log entry 8) -/
  out : StepOutput
  deriving DecidableEq, Repr

/-- Why a step stops. Raised by `step` and by the meaning of an unknown byte, by nothing else (R233). -/
inductive Fault where
  /-- Raised by `step` in `run_state = Idle`: stuck, no step exists before the first reset (R36, D23). Safe. -/
  | idle
  /-- Raised by `execUnknown` under UNKNOWN_POLICY = halt, with the offending byte and its address; no state changes
  and no boundary evaluation is made (R88, R231). Safe. -/
  | unknownOpcode (byte : Byte) (addr : Word)
  deriving DecidableEq, Repr

/-- Why an instruction is given no meaning. -/
inductive Refusal where
  /-- Raised by `exec` for an instruction that the model does not give a meaning yet; no arm raises it now. Safe. -/
  | notModelled (mnemonic : String)
  deriving DecidableEq, Repr

/-- The values that the spec leaves to a draw at power-on and at reset (R40). `pc` and `i` are drawn at power-on only;
`nmi` is used by RESET_NMI = any. -/
structure Draws where
  a : Byte
  x : Byte
  y : Byte
  sp : Byte
  pc : Word
  n : Bool
  v : Bool
  d : Bool
  i : Bool
  z : Bool
  c : Bool
  nmi : Bool
  deriving DecidableEq, Repr

/-- The one draw that `State.reset` takes. DESIGN CHOICE (unsafe, log entry 5): zero for every value R40 leaves
unspecified. -/
def Draws.zero : Draws :=
  { a := 0#8, x := 0#8, y := 0#8, sp := 0#8, pc := 0#16, n := false, v := false, d := false, i := false, z := false,
    c := false, nmi := false }

/-- The parameters of the spec's own vectors (R66, `spec/95_test_vectors.md` section 0), with RESET_NMI at the value
R5 calls conservative. DESIGN CHOICE (log entry 4). -/
def Params.reference : Params :=
  { unknownPolicy := .skip, decimal := .nmos, irqDisabled := [], irqAutoAck := [], resetNmi := .any, unknownCycles := 0,
    hooked := [] }

/-- The state at power-on, before any reset (R40, R270). -/
def State.powerOn (p : Params) (m : Memory) (d : Draws) : State :=
  { a := d.a, x := d.x, y := d.y, sp := d.sp, pc := d.pc,
    flags := { n := d.n, v := d.v, d := d.d, i := d.i, z := d.z, c := d.c },
    run := .idle,
    lines := { nmiLine := false, nmiPending := false, irqActive := [] },
    mem := m, params := p, draws := 0,
    out := { cycles := 0, outcomes := [], accesses := [] } }

/-- The machine right after its first reset, in the reference environment with nothing listed in memory (R40, R271): PC
is the word at 0xFFFC, which reads 0x0000 there (R273); I is 1; the two vector reads and 7 cycles are the output;
every register and flag that R40 leaves unspecified is zero (log entry 5). -/
def State.reset : State :=
  { a := 0#8, x := 0#8, y := 0#8, sp := 0#8, pc := 0x0000#16,
    flags := { n := false, v := false, d := false, i := true, z := false, c := false },
    run := .running,
    lines := { nmiLine := false, nmiPending := false, irqActive := [] },
    mem := [], params := Params.reference, draws := 0,
    out := { cycles := 7, outcomes := [], accesses := [.read 0xFFFC#16 0x00#8, .read 0xFFFD#16 0x00#8] } }

end Sys2Proof.Machine
end

