-- ==== Sys2Proof/Machine/Flags.lean ====
section
/-! DEFINITION. Every flag computation: Z and N (`spec/00_scope.md` R10), the status byte (R11, `spec/10_state.md` R27), the adder
and comparator (`spec/43_alu.md` R156, R157), decimal mode (R160, R161), shifts and rotates (`spec/44_incdec_shift.md` R177). -/

namespace Sys2Proof.Machine

/-- `SetZN(v)`: Z and N from a result byte, nothing else (R10). -/
def Flags.setZN (f : Flags) (v : Byte) : Flags := { f with z := v == 0#8, n := v.getLsbD 7 }

/-- `StatusByte(b)` = N:V:1:b:D:I:Z:C (R11, R27). -/
def statusByte (b : Bool) (f : Flags) : Byte :=
  BitVec.ofBool f.n ++ BitVec.ofBool f.v ++ 1#1 ++ BitVec.ofBool b ++ BitVec.ofBool f.d ++ BitVec.ofBool f.i ++
    BitVec.ofBool f.z ++ BitVec.ofBool f.c

/-- `LoadStatus(v)`: the six stored flags; bits 5 and 4 are ignored (R11, R32). -/
def loadStatus (v : Byte) : Flags :=
  { n := v.getLsbD 7, v := v.getLsbD 6, d := v.getLsbD 3, i := v.getLsbD 2, z := v.getLsbD 1, c := v.getLsbD 0 }

/-- A result byte with the flags an ADC or SBC writes. -/
structure AluResult where
  byte : Byte
  n : Bool
  v : Bool
  z : Bool
  c : Bool
  deriving DecidableEq, Repr

/-- The overflow formula of R156: `((a ^ r) & (m ^ r) & 0x80) ≠ 0`. -/
def signedOverflow (a m r : Byte) : Bool := ((a ^^^ r) &&& (m ^^^ r) &&& 0x80#8) != 0#8

/-- `AddBin(a, m, c)` with the Z and N that `SetZN` gives its result (R156, R158). -/
def addBin (a m : Byte) (c : Bool) : AluResult :=
  let s := a.toNat + m.toNat + c.toNat
  let r := BitVec.ofNat 8 s
  { byte := r, n := r.getLsbD 7, v := signedOverflow a m r, z := r == 0#8, c := decide (s > 255) }

/-- The low digits' sum of `AdcDecimal` after its correction (R160, line `al`); `x & 0x0F` is `x % 16`. -/
def adcLowDigit (a m : Byte) (c : Bool) : Nat :=
  let al := a.toNat % 16 + m.toNat % 16 + c.toNat
  if al ≥ 0x0A then (al + 0x06) % 16 + 0x10 else al

/-- `AdcDecimal(m)`, the NMOS algorithm on all operands (R160); `x & 0xF0` is `x / 16 * 16`. -/
def adcDecimal (a m : Byte) (c : Bool) : AluResult :=
  let bin := (a.toNat + m.toNat + c.toNat) % 256
  let s := a.toNat / 16 * 16 + m.toNat / 16 * 16 + adcLowDigit a m c
  let s' := if s ≥ 0xA0 then s + 0x60 else s
  { byte := BitVec.ofNat 8 s', n := (BitVec.ofNat 8 s).getLsbD 7, v := signedOverflow a m (BitVec.ofNat 8 s),
    z := bin == 0, c := decide (s' ≥ 0x100) }

/-- The low digits' difference of `SbcDecimalResult` after its correction (R161, line `al`). -/
def sbcLowDigit (a m : Byte) (c : Bool) : Int :=
  let al : Int := (a.toNat % 16 : Nat) - (m.toNat % 16 : Nat) + (c.toNat : Nat) - 1
  if al < 0 then (al - 0x06) % 16 - 0x10 else al

/-- `SbcDecimalResult(a, m, c)` on unbounded integers (R161). -/
def sbcDecimalResult (a m : Byte) (c : Bool) : Byte :=
  let t : Int := (a.toNat / 16 * 16 : Nat) - (m.toNat / 16 * 16 : Nat) + sbcLowDigit a m c
  BitVec.ofInt 8 (if t < 0 then t - 0x60 else t)

/-- Whether ADC and SBC are decimal: D = 1 and DECIMAL = nmos (R158, R159). -/
def decimalMode (p : Params) (f : Flags) : Bool := f.d && decide (p.decimal = .nmos)

/-- ADC's result byte and flags (R158). -/
def adcResult (dec : Bool) (a m : Byte) (c : Bool) : AluResult :=
  if dec then adcDecimal a m c else addBin a m c

/-- SBC's result byte and flags: the flags are always those of the binary subtraction (R159). -/
def sbcResult (dec : Bool) (a m : Byte) (c : Bool) : AluResult :=
  let r := addBin a (~~~m) c
  if dec then { r with byte := sbcDecimalResult a m c } else r

/-- The flags after ADC or SBC: N, V, Z, C written, D and I unchanged (R158, R159). -/
def Flags.setArith (f : Flags) (r : AluResult) : Flags := { f with n := r.n, v := r.v, z := r.z, c := r.c }

/-- `Compare(reg, m)`: C, Z and N, nothing else (R157). -/
def Flags.compare (f : Flags) (reg m : Byte) : Flags :=
  { f with c := decide (m.toNat ≤ reg.toNat), z := (reg - m) == 0#8, n := (reg - m).getLsbD 7 }

/-- BIT: Z from `A & M`, N and V from bits 7 and 6 of M (R155). -/
def Flags.bitTest (f : Flags) (a m : Byte) : Flags :=
  { f with z := (a &&& m) == 0#8, n := m.getLsbD 7, v := m.getLsbD 6 }

/-- A shifted byte and the bit shifted out. -/
structure Shifted where
  byte : Byte
  c : Bool
  deriving DecidableEq, Repr

/-- ASL (R177, R179). -/
def aslByte (v : Byte) : Shifted := { byte := v <<< 1, c := v.getLsbD 7 }

/-- LSR (R177, R180). -/
def lsrByte (v : Byte) : Shifted := { byte := v >>> 1, c := v.getLsbD 0 }

/-- ROL through the old Carry (R177, R181). -/
def rolByte (c : Bool) (v : Byte) : Shifted :=
  { byte := (v <<< 1) ||| (BitVec.ofBool c).setWidth 8, c := v.getLsbD 7 }

/-- ROR through the old Carry (R177, R182). -/
def rorByte (c : Bool) (v : Byte) : Shifted :=
  { byte := (v >>> 1) ||| ((BitVec.ofBool c).setWidth 8 <<< 7), c := v.getLsbD 0 }

/-- The flags after a shift or rotate: C is the bit shifted out, Z and N from the result (R177). -/
def Flags.setShift (f : Flags) (r : Shifted) : Flags := { f.setZN r.byte with c := r.c }

end Sys2Proof.Machine
end

