-- ==== Sys2Proof/Machine/Ops.lean ====
section
/-! DEFINITION. The named operations on registers, the step's outputs, the interrupt lines, the memory port
(`spec/00_scope.md` R7, R8), the stack (R9), and TAKING AN INTERRUPT with the return from one
(`spec/60_exceptions.md` R242, `spec/45_control_flow.md` R195, R196). -/

namespace Sys2Proof.Machine

/-! ## Registers -/

/-- `A <- v`. -/
def State.setA (s : State) (v : Byte) : State := { s with a := v }
/-- `X <- v`. -/
def State.setX (s : State) (v : Byte) : State := { s with x := v }
/-- `Y <- v`. -/
def State.setY (s : State) (v : Byte) : State := { s with y := v }
/-- `SP <- v`. -/
def State.setSp (s : State) (v : Byte) : State := { s with sp := v }
/-- `PC <- w` (R13). -/
def State.setPc (s : State) (w : Word) : State := { s with pc := w }
/-- The six stored flags, written together. -/
def State.setFlags (s : State) (f : Flags) : State := { s with flags := f }
/-- The interrupt bookkeeping, written together. -/
def State.setLines (s : State) (l : Lines) : State := { s with lines := l }
/-- The plain RAM's contents, replaced. -/
def State.setMem (s : State) (m : Memory) : State := { s with mem := m }
/-- The draw counter, replaced. -/
def State.setDraws (s : State) (n : Nat) : State := { s with draws := n }
/-- The step's outputs, written together. -/
def State.setOut (s : State) (o : StepOutput) : State := { s with out := o }
/-- `run_state`, written. -/
def State.setRun (s : State) (r : RunState) : State := { s with run := r }

/-- `SetZN(v)` on the stored flags (R10). -/
def State.setZN (s : State) (v : Byte) : State := s.setFlags (s.flags.setZN v)

/-! ## The step's outputs (R12) -/

/-- No output yet: a step or a reset begins. -/
def State.beginOutput (s : State) : State := s.setOut { cycles := 0, outcomes := [], accesses := [] }
/-- `signal o`. -/
def State.signal (s : State) (o : Signal) : State := s.setOut { s.out with outcomes := s.out.outcomes ++ [o] }
/-- `cycles <- cycles + n`. -/
def State.addCycles (s : State) (n : Nat) : State := s.setOut { s.out with cycles := s.out.cycles + n }
/-- One access on the port is noted. -/
def State.noteAccess (s : State) (e : Access) : State := s.setOut { s.out with accesses := s.out.accesses ++ [e] }

/-! ## Interrupt lines (R236, R237) -/

/-- The four signalling operations on the bookkeeping: a raise sets the latch on a 0-to-1 change only, and a clear
leaves the latch alone. -/
def applyLineOp (op : LineOp) (l : Lines) : Lines :=
  match op with
  | .activate s => { l with irqActive := SourceSet.insert l.irqActive s }
  | .deactivate s => { l with irqActive := SourceSet.erase l.irqActive s }
  | .nmiRaise => if l.nmiLine then l else { l with nmiLine := true, nmiPending := true }
  | .nmiClear => { l with nmiLine := false }

/-- Signalling operations in order. -/
def Lines.applyAll (l : Lines) : List LineOp → Lines
  | [] => l
  | op :: ops => Lines.applyAll (applyLineOp op l) ops

/-- `IRQ_ENABLED(s)` (R5, R236). -/
def irqEnabled (p : Params) (s : IrqSource) : Bool := !(p.irqDisabled.contains s)

/-- `IRQ_AUTOACK(s)` (R5, R241). -/
def irqAutoAcked (p : Params) (s : IrqSource) : Bool := p.irqAutoAck.contains s

/-- `irq_request`, derived and not stored (R236, R38). -/
def State.irqRequest (s : State) : Bool := s.lines.irqActive.any (irqEnabled s.params)

/-! ## The memory port (R7, R60 to R66) -/

/-- Whether an address lies in a range. -/
def rangeHolds (r : AddrRange) (a : Nat) : Bool := decide (r.first ≤ a) && decide (a ≤ r.last)

/-- `PlainRam(a)` (R65). -/
def plainRam (p : Params) (a : Word) : Bool := !(p.hooked.any (fun r => rangeHolds r a.toNat))

/-- The hook of an access outside plain RAM acts: it may signal on the interrupt lines (R62, R235 (b)). -/
def State.hookActs (s : State) : State :=
  (s.setLines (s.lines.applyAll (Config.hookOps s.draws))).setDraws (s.draws + 1)

/-- The byte that `MemRead(a, 1)` returns: the last byte written for plain RAM, else a free value (R65). -/
def State.portByte (s : State) (a : Word) : Byte :=
  if plainRam s.params a then s.mem.read a.toNat else Config.portByte s.draws

/-- `MemRead(a, 1)`: the byte, and the state after the access (R7, R65). -/
def memRead (a : Word) (s : State) : Byte × State :=
  (s.portByte a, (if plainRam s.params a then s else s.hookActs).noteAccess (.read a (s.portByte a)))

/-- `MemWrite(a, 1, v)`: never refused; outside plain RAM it reaches no storage that a read of the model answers from
(R7, R61, R65). -/
def memWrite (a : Word) (v : Byte) (s : State) : State :=
  (if plainRam s.params a then s.setMem (s.mem.write a.toNat v) else s.hookActs).noteAccess (.write a v)

/-- `0x00 : b`, an address in page zero (R104). -/
def zeroPageAddr (b : Byte) : Word := word 0x00#8 b

/-- `0x01 : sp`, an address in the stack page (R9, R24). -/
def stackAddr (sp : Byte) : Word := word 0x01#8 sp

/-- A word read from two given addresses, low byte first (R8, D12). -/
def readPair (al ah : Word) (s : State) : Word × State :=
  let l := memRead al s
  let h := memRead ah l.2
  (word h.1 l.1, h.2)

/-- `ReadWord(a)` (R8). -/
def readWord (a : Word) (s : State) : Word × State := readPair a (a + 1#16) s

/-- `ReadWordZP(p)`: the high byte wraps inside page zero (R8). -/
def readWordZP (p : Byte) (s : State) : Word × State := readPair (zeroPageAddr p) (zeroPageAddr (p + 1#8)) s

/-- `ReadWordPageWrap(a)`: the high byte wraps inside the page of `a` (R8, R110). -/
def readWordPageWrap (a : Word) (s : State) : Word × State := readPair a (word (hi a) (lo a + 1#8)) s

/-! ## The stack (R9, R140) -/

/-- `Push8(v)`: store, then decrement. -/
def push8 (v : Byte) (s : State) : State := (memWrite (stackAddr s.sp) v s).setSp (s.sp - 1#8)

/-- `Pull8()`: increment, then load. -/
def pull8 (s : State) : Byte × State := memRead (stackAddr (s.sp + 1#8)) (s.setSp (s.sp + 1#8))

/-- `Push16(w)`: high byte first. -/
def push16 (w : Word) (s : State) : State := push8 (lo w) (push8 (hi w) s)

/-- `Pull16()`: low byte first. -/
def pull16 (s : State) : Word × State :=
  let l := pull8 s
  let h := pull8 l.2
  (word h.1 l.1, h.2)

/-! ## Taking an interrupt, and returning from one -/

/-- The address of the NMI vector (R57, R243). -/
def vecNmi : Word := 0xFFFA#16
/-- The address of the reset vector (R57, R243). -/
def vecReset : Word := 0xFFFC#16
/-- The address of the vector that IRQ and BRK share (R57, R243). -/
def vecIrq : Word := 0xFFFE#16

/-- INT_CYCLES (R5, R283), timing only. -/
def intCycles : Nat := 7

/-- The sequence that BRK, the NMI service and the IRQ service share (R242, R196): push the return address high byte
first, push the status byte with Break = `brk` and I as it was before, set I, load PC from the vector. A, X, Y, the other
flags (D among them) and the bookkeeping are left alone. -/
def takeInterrupt (ret : Word) (brk : Bool) (vec : Word) (s : State) : State :=
  let s1 := push16 ret s
  let s2 := push8 (statusByte brk s1.flags) s1
  let v := readWord vec (s2.setFlags { s2.flags with i := true })
  v.2.setPc v.1

/-- The return from one (R195): flags from the pulled status byte, then PC from the pulled word, with nothing added. -/
def returnFromInterrupt (s : State) : State :=
  let v := pull8 s
  let p := pull16 (v.2.setFlags (loadStatus v.1))
  p.2.setPc p.1

/-! ## The end of an instruction (R13, R231, R280, R281) -/

/-- The minimum cycle number of an instruction's descriptor (R86, R282); timing only. -/
def minCycles (i : Instr) : Nat :=
  match i.row with
  | some r => r.cycles
  | none => 0

/-- The extra cycle of an encoding marked `+p` when the index addition crossed a page (R281); timing only. -/
def crossCycles (i : Instr) (crossed : Bool) : Nat :=
  match i.row with
  | some r => (r.crossCycle && crossed).toNat
  | none => 0

/-- `NEXT = (PC0 + size) mod 65536` (R13). -/
def nextPc (i : Instr) (s : State) : Word := s.pc + BitVec.ofNat 16 i.size

/-- The instruction part ends without having set PC: `PC <- NEXT`, and its cycles are put out (R13, R231). -/
def retire (i : Instr) (crossed : Bool) (s : State) : State :=
  (s.setPc (nextPc i s)).addCycles (minCycles i + crossCycles i crossed)

/-- The instruction part ends with PC set to a target (R190); `extra` is the branch's (R197). -/
def retireTo (i : Instr) (target : Word) (extra : Nat) (s : State) : State :=
  (s.setPc target).addCycles (minCycles i + extra)

end Sys2Proof.Machine
end

