-- ==== Sys2Proof/Machine/Operands.lean ====
section
/-! DEFINITION. The addressing-mode resolver of `spec/40_addressing_modes.md`: every operand form with its effective address,
its accesses after the operand fetch, and its `crossed` flag (R100 to R117). -/

namespace Sys2Proof.Machine

/-- `sext_16(d)` (R6). -/
def sext16 (d : Byte) : Word := d.signExtend 16

/-- What the resolver yields for a memory mode (R100): the effective address E, `crossed`, and the state after the pointer
reads. -/
structure Resolved where
  addr : Word
  crossed : Bool
  state : State
  deriving DecidableEq, Repr

/-- A 16-bit base with an index register added, with the page comparison (R108, R109, R112). -/
def indexed (base : Word) (index : Byte) (s : State) : Resolved :=
  let e := base + index.setWidth 16
  { addr := e, crossed := hi base != hi e, state := s }

/-- The resolver on the modes that address a data byte (R104 to R109, R111, R112, R117). -/
def resolve (m : MemMode) (s : State) : Resolved :=
  match m with
  | .zeroPage b => { addr := zeroPageAddr b, crossed := false, state := s }
  | .zeroPageX b => { addr := zeroPageAddr (b + s.x), crossed := false, state := s }
  | .zeroPageY b => { addr := zeroPageAddr (b + s.y), crossed := false, state := s }
  | .absolute w => { addr := w, crossed := false, state := s }
  | .absoluteX w => indexed w s.x s
  | .absoluteY w => indexed w s.y s
  | .indexedIndirect b =>
    let p := readWordZP (b + s.x) s
    { addr := p.1, crossed := false, state := p.2 }
  | .indirectIndexed b =>
    let p := readWordZP b s
    indexed p.1 s.y p.2

/-- An operand byte M, `crossed`, and the state after the accesses that gave it. -/
structure Operand where
  byte : Byte
  crossed : Bool
  state : State
  deriving DecidableEq, Repr

/-- The one data read at E (R114). -/
def readMem (m : MemMode) (s : State) : Operand :=
  let r := resolve m s
  let v := memRead r.addr r.state
  { byte := v.1, crossed := r.crossed, state := v.2 }

/-- `OperandValue()` (R114): the immediate byte, or the byte at E. -/
def readSource (src : Source) (s : State) : Operand :=
  match src with
  | .imm v => { byte := v, crossed := false, state := s }
  | .mem m => readMem m s

/-- The target of JMP (R107, R110, R191), with the pointer reads of the Indirect mode. -/
def resolveJump (j : JumpTarget) (s : State) : Word × State :=
  match j with
  | .absolute w => (w, s)
  | .indirect w => readWordPageWrap w s

/-- The target of a branch at `pc` (R113): relative to the address after the branch. -/
def branchTarget (pc : Word) (d : Byte) : Word := pc + 2#16 + sext16 d

/-- `crossed` of the Relative mode (R113). -/
def branchCrossed (pc : Word) (d : Byte) : Bool := hi (pc + 2#16) != hi (branchTarget pc d)

end Sys2Proof.Machine
end

