-- ==== Sys2Proof/Machine/LoadStore.lean ====
section
/-! DEFINITION. Loads, stores and register transfers (`spec/41_load_store_transfer.md`). -/

namespace Sys2Proof.Machine

/-- What every meaning answers. -/
abbrev Result := Host.Outcome State Fault Refusal

/-- LDA (R120). -/
def execLda (src : Source) (s : State) : Result :=
  let m := readSource src s
  .next (retire (.lda src) m.crossed ((m.state.setA m.byte).setZN m.byte))

/-- LDX (R121). -/
def execLdx (src : Source) (s : State) : Result :=
  let m := readSource src s
  .next (retire (.ldx src) m.crossed ((m.state.setX m.byte).setZN m.byte))

/-- LDY (R122). -/
def execLdy (src : Source) (s : State) : Result :=
  let m := readSource src s
  .next (retire (.ldy src) m.crossed ((m.state.setY m.byte).setZN m.byte))

/-- The shape of a store: `MemWrite(E, 1, v); PC <- NEXT`; the target is not read (R123 to R125). -/
def storeByte (i : Instr) (m : MemMode) (v : Byte) (s : State) : State :=
  let r := resolve m s
  retire i r.crossed (memWrite r.addr v r.state)

/-- STA (R123). -/
def execSta (m : MemMode) (s : State) : Result := .next (storeByte (.sta m) m s.a s)

/-- STX (R124). -/
def execStx (m : MemMode) (s : State) : Result := .next (storeByte (.stx m) m s.x s)

/-- STY (R125). -/
def execSty (m : MemMode) (s : State) : Result := .next (storeByte (.sty m) m s.y s)

/-- TAX (R126). -/
def execTax (s : State) : Result := .next (retire .tax false ((s.setX s.a).setZN s.a))

/-- TAY (R127). -/
def execTay (s : State) : Result := .next (retire .tay false ((s.setY s.a).setZN s.a))

/-- TXA (R128). -/
def execTxa (s : State) : Result := .next (retire .txa false ((s.setA s.x).setZN s.x))

/-- TYA (R129). -/
def execTya (s : State) : Result := .next (retire .tya false ((s.setA s.y).setZN s.y))

/-- TSX (R130). -/
def execTsx (s : State) : Result := .next (retire .tsx false ((s.setX s.sp).setZN s.sp))

/-- TXS: the one transfer that writes no flag (R131). -/
def execTxs (s : State) : Result := .next (retire .txs false (s.setSp s.x))

end Sys2Proof.Machine
end

