-- ==== Sys2Proof/Machine/Alu.lean ====
section
/-! DEFINITION. Logic, arithmetic and compare instructions (`spec/43_alu.md`). -/

namespace Sys2Proof.Machine

/-- AND (R152). -/
def execAnd (src : Source) (s : State) : Result :=
  let m := readSource src s
  .next (retire (.and src) m.crossed ((m.state.setA (s.a &&& m.byte)).setZN (s.a &&& m.byte)))

/-- ORA (R153). -/
def execOra (src : Source) (s : State) : Result :=
  let m := readSource src s
  .next (retire (.ora src) m.crossed ((m.state.setA (s.a ||| m.byte)).setZN (s.a ||| m.byte)))

/-- EOR (R154). -/
def execEor (src : Source) (s : State) : Result :=
  let m := readSource src s
  .next (retire (.eor src) m.crossed ((m.state.setA (s.a ^^^ m.byte)).setZN (s.a ^^^ m.byte)))

/-- BIT: A and memory are not changed (R155). -/
def execBit (mm : MemMode) (s : State) : Result :=
  let m := readMem mm s
  .next (retire (.bit mm) m.crossed (m.state.setFlags (m.state.flags.bitTest s.a m.byte)))

/-- ADC, binary or decimal (R158, R160). -/
def execAdc (src : Source) (s : State) : Result :=
  let m := readSource src s
  let r := adcResult (decimalMode s.params s.flags) s.a m.byte s.flags.c
  .next (retire (.adc src) m.crossed ((m.state.setA r.byte).setFlags (m.state.flags.setArith r)))

/-- SBC, binary or decimal (R159, R161). -/
def execSbc (src : Source) (s : State) : Result :=
  let m := readSource src s
  let r := sbcResult (decimalMode s.params s.flags) s.a m.byte s.flags.c
  .next (retire (.sbc src) m.crossed ((m.state.setA r.byte).setFlags (m.state.flags.setArith r)))

/-- CMP (R162). -/
def execCmp (src : Source) (s : State) : Result :=
  let m := readSource src s
  .next (retire (.cmp src) m.crossed (m.state.setFlags (m.state.flags.compare s.a m.byte)))

/-- CPX (R163). -/
def execCpx (src : Source) (s : State) : Result :=
  let m := readSource src s
  .next (retire (.cpx src) m.crossed (m.state.setFlags (m.state.flags.compare s.x m.byte)))

/-- CPY (R164). -/
def execCpy (src : Source) (s : State) : Result :=
  let m := readSource src s
  .next (retire (.cpy src) m.crossed (m.state.setFlags (m.state.flags.compare s.y m.byte)))

end Sys2Proof.Machine
end

