-- ==== Sys2Proof/Machine/Control.lean ====
section
/-! DEFINITION. Jumps, subroutines, BRK, RTI and the conditional branches (`spec/45_control_flow.md`). -/

namespace Sys2Proof.Machine

/-- JMP (R191). -/
def execJmp (j : JumpTarget) (s : State) : Result :=
  let t := resolveJump j s
  .next (retireTo (.jmp j) t.1 0 t.2)

/-- JSR: the pushed word is the address of its own last byte (R193). -/
def execJsr (w : Word) (s : State) : Result := .next (retireTo (.jsr w) w 0 (push16 (s.pc + 2#16) s))

/-- RTS: the pulled word plus one (R194). -/
def execRts (s : State) : Result :=
  let r := pull16 s
  .next (retireTo .rts (r.1 + 1#16) 0 r.2)

/-- RTI (R195). -/
def execRti (s : State) : Result :=
  let t := returnFromInterrupt s
  .next (retireTo .rti t.pc 0 t)

/-- BRK: return address PC0 + 2, Break = 1, the IRQ vector; signalled (R196). -/
def execBrk (s : State) : Result :=
  let t := takeInterrupt (s.pc + 2#16) true vecIrq s
  .next (retireTo .brk t.pc 0 (t.signal .brkExecuted))

/-- The shape of a branch (R197): taken to E with one extra cycle and one more when the page changes, else on to NEXT. -/
def branchIf (i : Instr) (cond : Bool) (d : Byte) (s : State) : State :=
  if cond then retireTo i (branchTarget s.pc d) (1 + (branchCrossed s.pc d).toNat) s
  else retire i false s

/-- BPL (R200). -/
def execBpl (d : Byte) (s : State) : Result := .next (branchIf (.bpl d) (!s.flags.n) d s)

/-- BMI (R201). -/
def execBmi (d : Byte) (s : State) : Result := .next (branchIf (.bmi d) s.flags.n d s)

/-- BVC (R202). -/
def execBvc (d : Byte) (s : State) : Result := .next (branchIf (.bvc d) (!s.flags.v) d s)

/-- BVS (R203). -/
def execBvs (d : Byte) (s : State) : Result := .next (branchIf (.bvs d) s.flags.v d s)

/-- BCC (R204). -/
def execBcc (d : Byte) (s : State) : Result := .next (branchIf (.bcc d) (!s.flags.c) d s)

/-- BCS (R205). -/
def execBcs (d : Byte) (s : State) : Result := .next (branchIf (.bcs d) s.flags.c d s)

/-- BNE (R206). -/
def execBne (d : Byte) (s : State) : Result := .next (branchIf (.bne d) (!s.flags.z) d s)

/-- BEQ (R207). -/
def execBeq (d : Byte) (s : State) : Result := .next (branchIf (.beq d) s.flags.z d s)

end Sys2Proof.Machine
end

