-- ==== Sys2Proof/Machine/FlagOps.lean ====
section
/-! DEFINITION. Flag instructions and NOP (`spec/46_flags_nop.md`), and the unknown bytes (`spec/30_encoding.md` R88). -/

namespace Sys2Proof.Machine

/-- CLC (R220). -/
def execClc (s : State) : Result := .next (retire .clc false (s.setFlags { s.flags with c := false }))

/-- SEC (R221). -/
def execSec (s : State) : Result := .next (retire .sec false (s.setFlags { s.flags with c := true }))

/-- CLI (R222). -/
def execCli (s : State) : Result := .next (retire .cli false (s.setFlags { s.flags with i := false }))

/-- SEI (R223). -/
def execSei (s : State) : Result := .next (retire .sei false (s.setFlags { s.flags with i := true }))

/-- CLV (R224). -/
def execClv (s : State) : Result := .next (retire .clv false (s.setFlags { s.flags with v := false }))

/-- CLD (R225). -/
def execCld (s : State) : Result := .next (retire .cld false (s.setFlags { s.flags with d := false }))

/-- SED (R226). -/
def execSed (s : State) : Result := .next (retire .sed false (s.setFlags { s.flags with d := true }))

/-- NOP (R227). -/
def execNop (s : State) : Result := .next (retire .nop false s)

/-- An unknown byte (R88): signalled; a fault that changes nothing under `halt`, PC plus one under `skip`. -/
def execUnknown (op : Byte) (s : State) : Result :=
  match s.params.unknownPolicy with
  | .halt => .fault (.unknownOpcode op s.pc)
  | .skip =>
    .next (((s.signal (.unknownOpcode op s.pc)).setPc (s.pc + 1#16)).addCycles s.params.unknownCycles)

end Sys2Proof.Machine
end

