-- ==== Sys2Proof/Machine/IncDecShift.lean ====
section
/-! DEFINITION. Increments, decrements, shifts and rotates (`spec/44_incdec_shift.md`). -/

namespace Sys2Proof.Machine

/-- The read-modify-write shape of R170: one read of E, one write of E with the function's result, then the flags, which are
computed from the byte that is sent and not from what memory holds afterwards. -/
def modifyByte (i : Instr) (m : MemMode) (f : Byte → Byte) (g : Flags → Byte → Flags) (s : State) : State :=
  let r := resolve m s
  let v := memRead r.addr r.state
  let t := memWrite r.addr (f v.1) v.2
  retire i r.crossed (t.setFlags (g t.flags v.1))

/-- INC (R171). -/
def execInc (m : MemMode) (s : State) : Result :=
  .next (modifyByte (.inc m) m (fun v => v + 1#8) (fun f v => f.setZN (v + 1#8)) s)

/-- DEC (R172). -/
def execDec (m : MemMode) (s : State) : Result :=
  .next (modifyByte (.dec m) m (fun v => v - 1#8) (fun f v => f.setZN (v - 1#8)) s)

/-- INX (R173). -/
def execInx (s : State) : Result := .next (retire .inx false ((s.setX (s.x + 1#8)).setZN (s.x + 1#8)))

/-- INY (R174). -/
def execIny (s : State) : Result := .next (retire .iny false ((s.setY (s.y + 1#8)).setZN (s.y + 1#8)))

/-- DEX (R175). -/
def execDex (s : State) : Result := .next (retire .dex false ((s.setX (s.x - 1#8)).setZN (s.x - 1#8)))

/-- DEY (R176). -/
def execDey (s : State) : Result := .next (retire .dey false ((s.setY (s.y - 1#8)).setZN (s.y - 1#8)))

/-- The shape of a shift or rotate (R177): on A, or on the byte at E by R170. -/
def shiftTarget (i : Instr) (t : Target) (f : Byte → Shifted) (s : State) : State :=
  match t with
  | .acc => retire i false ((s.setA (f s.a).byte).setFlags (s.flags.setShift (f s.a)))
  | .mem m => modifyByte i m (fun v => (f v).byte) (fun g v => g.setShift (f v)) s

/-- ASL (R179). -/
def execAsl (t : Target) (s : State) : Result := .next (shiftTarget (.asl t) t aslByte s)

/-- LSR (R180). -/
def execLsr (t : Target) (s : State) : Result := .next (shiftTarget (.lsr t) t lsrByte s)

/-- ROL (R181). -/
def execRol (t : Target) (s : State) : Result := .next (shiftTarget (.rol t) t (rolByte s.flags.c) s)

/-- ROR (R182). -/
def execRor (t : Target) (s : State) : Result := .next (shiftTarget (.ror t) t (rorByte s.flags.c) s)

end Sys2Proof.Machine
end

