-- ==== Sys2Proof/Machine/Stack.lean ====
section
/-! DEFINITION. Stack instructions (`spec/42_stack.md`). -/

namespace Sys2Proof.Machine

/-- PHA (R142). -/
def execPha (s : State) : Result := .next (retire .pha false (push8 s.a s))

/-- PHP: the pushed byte has bits 5 and 4 set (R143). -/
def execPhp (s : State) : Result := .next (retire .php false (push8 (statusByte true s.flags) s))

/-- PLA (R144). -/
def execPla (s : State) : Result :=
  let v := pull8 s
  .next (retire .pla false ((v.2.setA v.1).setZN v.1))

/-- PLP: bits 5 and 4 of the pulled byte have no effect (R145). -/
def execPlp (s : State) : Result :=
  let v := pull8 s
  .next (retire .plp false (v.2.setFlags (loadStatus v.1)))

end Sys2Proof.Machine
end

