-- ==== Sys2Proof/Machine/Environment.lean ====
section
/-! DEFINITION. What the environment may do to the machine between two steps or in Idle (`spec/60_exceptions.md` R235 to R238,
`spec/70_reset_and_hazards.md` R271, `spec/20_memory.md` R64): signal on the interrupt lines, reset, write plain RAM. -/

namespace Sys2Proof.Machine

/-- `nmi_pending` after reset, per RESET_NMI (R40, R271). -/
def resetPending (p : ResetNmi) (old draw : Bool) : Bool :=
  match p with
  | .clear => false
  | .keep => old
  | .any => draw

/-- The reset sequence (R271): PC from the reset vector, I set, every other register and flag a draw, the two other lines
and memory unchanged; two reads, no write, no boundary evaluation. -/
def envReset (d : Draws) (s : State) : State :=
  let v := readWord vecReset s.beginOutput
  let t := ((((v.2.setPc v.1).setA d.a).setX d.x).setY d.y).setSp d.sp
  let t := t.setFlags { n := d.n, v := d.v, d := d.d, i := true, z := d.z, c := d.c }
  let t := t.setLines { t.lines with nmiPending := resetPending t.params.resetNmi t.lines.nmiPending d.nmi }
  (t.setRun .running).addCycles intCycles

/-- `store_block(base, bytes)` (R64): the host's bulk load into memory, addresses modulo 65536; no access of the core. -/
def storeBlock (base : Word) : List Byte → State → State
  | [], s => s
  | v :: vs, s => storeBlock (base + 1#16) vs (s.setMem (s.mem.write base.toNat v))

/-- The operations of the environment (R14 point 8). -/
inductive EnvOp where
  | line (op : LineOp)
  | reset (d : Draws)
  | store (base : Word) (bytes : List Byte)
  deriving DecidableEq, Repr

/-- One operation of the environment. A signalling operation changes the bookkeeping and nothing else (R235). -/
def applyEnv (e : EnvOp) (s : State) : State :=
  match e with
  | .line op => s.setLines (applyLineOp op s.lines)
  | .reset d => envReset d s
  | .store base bytes => storeBlock base bytes s

end Sys2Proof.Machine
end

