-- ==== Sys2Proof/Machine/Fetch.lean ====
section
/-! DEFINITION. Fetching an instruction at PC (`spec/20_memory.md` R54, R70; `spec/30_encoding.md` R82): the opcode byte, then
as many operand bytes as its size says, each through the memory port. -/

namespace Sys2Proof.Machine

/-- A fetched instruction and the state after its fetch; PC has not moved. -/
structure Fetched where
  instr : Instr
  state : State
  deriving DecidableEq, Repr

/-- The k-th operand byte, read only when the size has it (R54, D30); 0 stands for a byte that is not there, and no decoding
reads it. -/
def fetchOperand (size k : Nat) (pc : Word) (s : State) : Byte × State :=
  if k < size then memRead (pc + BitVec.ofNat 16 k) s else (0#8, s)

/-- The fetch and the decode (R231, R54 points 1 and 2). -/
def fetch (s : State) : Fetched :=
  let op := memRead s.pc s
  let b1 := fetchOperand (sizeOfByte op.1) 1 s.pc op.2
  let b2 := fetchOperand (sizeOfByte op.1) 2 s.pc b1.2
  { instr := decodeBytes op.1 b1.1 b2.1, state := b2.2 }

end Sys2Proof.Machine
end

