-- ==== Sys2Proof/Machine/Interrupts.lean ====
section
/-! DEFINITION. The boundary evaluation at the end of every step that did not fault (`spec/60_exceptions.md` R239, R240, R241,
R242). -/

namespace Sys2Proof.Machine

/-- `Service(vec)` (R242): the return address is the PC that the instruction part left, and Break is pushed as 0. -/
def service (vec : Word) (s : State) : State := takeInterrupt s.pc false vec s

/-- The sources that an IRQ service acknowledges: active, enabled and auto-acknowledge (R241). -/
def ackedSources (s : State) : SourceSet :=
  s.lines.irqActive.filter (fun q => irqEnabled s.params q && irqAutoAcked s.params q)

/-- The service of a latched NMI: the latch is cleared first (R239). -/
def serviceNmi (s : State) : State :=
  ((service vecNmi (s.setLines { s.lines with nmiPending := false })).signal (.serviced .nmi)).addCycles intCycles

/-- The service of the IRQ class: the acknowledged sources, taken before the service, are removed after it (R239, R241). -/
def serviceIrq (s : State) : State :=
  let t := service vecIrq s
  let l := { t.lines with irqActive := t.lines.irqActive.filter (fun q => !((ackedSources s).contains q)) }
  ((t.setLines l).signal (.serviced .irq)).addCycles intCycles

/-- `Boundary()` (R239): NMI before IRQ, IRQ only when I is clear, at most one service. -/
def boundary (s : State) : State :=
  if s.lines.nmiPending then serviceNmi s
  else if s.irqRequest && !s.flags.i then serviceIrq s
  else s

end Sys2Proof.Machine
end

