-- ==== Sys2Proof/Machine/Step.lean ====
section
/-! DEFINITION. The step of the core (`spec/60_exceptions.md` R231): fetch and decode, the instruction part, the boundary
evaluation; and the placing of an instruction where the next step fetches. -/

namespace Sys2Proof.Machine

/-- The boundary evaluation after an instruction part that did not fault (R231, R239). -/
def finishStep (r : Host.Outcome State Fault Refusal) : Host.Outcome State Fault Refusal :=
  match r with
  | .next t => .next (boundary t)
  | .fault f => .fault f
  | .refused q => .refused q

/-- One step (R231): stuck in Idle (R36). -/
def step (s : State) : Host.Outcome State Fault Refusal :=
  match s.run with
  | .idle => .fault .idle
  | .running => finishStep (exec (fetch s.beginOutput).instr (fetch s.beginOutput).state)

/-- The state with an instruction's bytes stored at PC as `store_block` stores them, Running, and the three bytes' addresses
plain RAM (a range that holds one of them is taken off the platform's list), so that the next step fetches and runs it
(log entry 12). -/
def State.withFetchWord (s : State) (nbits w : Nat) : State :=
  let t := (storeBlock s.pc (tableWordBytes nbits w) s).setRun .running
  let here := [s.pc.toNat, (s.pc + 1#16).toNat, (s.pc + 2#16).toNat]
  { t with params := { t.params with hooked := t.params.hooked.filter (fun r => !(here.any (rangeHolds r))) } }

end Sys2Proof.Machine
end

