-- ==== Sys2Proof/Safety.lean ====
section
/-! DEFINITION. The terms the claims use: the invariant, what a step leaves alone, how a store shows in memory, and the
encoding and access tables of the spec written out as predicates. -/

namespace Sys2Proof.Safety

open Sys2Proof.Machine

/-! ## The invariant -/

/-- Memory and the set of active sources are in their canonical forms. -/
def Canonical (s : State) : Prop := s.mem.wf = true ∧ s.lines.irqActive.wf = true

/-! ## Memory accesses -/

/-- One access of R115's table: its direction and address. -/
inductive AccessAt where
  | r (a : Word)
  | w (a : Word)
  deriving DecidableEq, Repr

/-- The direction and address of a noted access. -/
def accessAt : Access → AccessAt
  | .read a _ => .r a
  | .write a _ => .w a

/-- The accesses a list of outputs shows. -/
def accessesOf (o : StepOutput) : List AccessAt := o.accesses.map accessAt

/-- The pointer reads of a memory mode (R115, rows IndexedIndirect and IndirectIndexed). -/
def pointerAccesses (m : MemMode) (s : State) : List AccessAt :=
  match m with
  | .zeroPage _ => []
  | .zeroPageX _ => []
  | .zeroPageY _ => []
  | .absolute _ => []
  | .absoluteX _ => []
  | .absoluteY _ => []
  | .indexedIndirect b => [.r (word 0#8 (b + s.x)), .r (word 0#8 (b + s.x + 1#8))]
  | .indirectIndexed b => [.r (word 0#8 b), .r (word 0#8 (b + 1#8))]

/-- R115, class read: pointer reads, then the data read at E. -/
def readAccesses (m : MemMode) (s : State) : List AccessAt := pointerAccesses m s ++ [.r (resolve m s).addr]

/-- R115, class read with an Immediate row. -/
def sourceAccesses (src : Source) (s : State) : List AccessAt :=
  match src with
  | .imm _ => []
  | .mem m => readAccesses m s

/-- R115, class store: pointer reads, then the data write at E. -/
def storeAccesses (m : MemMode) (s : State) : List AccessAt := pointerAccesses m s ++ [.w (resolve m s).addr]

/-- R115, class read-modify-write: pointer reads (none in the modes it has), one read of E, one write of E. -/
def modifyAccesses (m : MemMode) (s : State) : List AccessAt :=
  pointerAccesses m s ++ [.r (resolve m s).addr, .w (resolve m s).addr]

/-- R115, shifts: none on A, read-modify-write on memory. -/
def targetAccesses (t : Target) (s : State) : List AccessAt :=
  match t with
  | .acc => []
  | .mem m => modifyAccesses m s

/-- The stack address `0x01 : (SP + k)`, the offset modulo 256 (R115). -/
def stackAt (s : State) (k : Int) : Word := word 0x01#8 (s.sp + BitVec.ofInt 8 k)

/-- The table of R115: the accesses of the instruction part after the operand fetch, in order. -/
def instrAccesses (i : Instr) (s : State) : List AccessAt :=
  match i with
  | .lda src => sourceAccesses src s
  | .ldx src => sourceAccesses src s
  | .ldy src => sourceAccesses src s
  | .sta m => storeAccesses m s
  | .stx m => storeAccesses m s
  | .sty m => storeAccesses m s
  | .and src => sourceAccesses src s
  | .ora src => sourceAccesses src s
  | .eor src => sourceAccesses src s
  | .bit m => readAccesses m s
  | .adc src => sourceAccesses src s
  | .sbc src => sourceAccesses src s
  | .cmp src => sourceAccesses src s
  | .cpx src => sourceAccesses src s
  | .cpy src => sourceAccesses src s
  | .inc m => modifyAccesses m s
  | .dec m => modifyAccesses m s
  | .asl t => targetAccesses t s
  | .lsr t => targetAccesses t s
  | .rol t => targetAccesses t s
  | .ror t => targetAccesses t s
  | .pha => [.w (stackAt s 0)]
  | .php => [.w (stackAt s 0)]
  | .pla => [.r (stackAt s 1)]
  | .plp => [.r (stackAt s 1)]
  | .rts => [.r (stackAt s 1), .r (stackAt s 2)]
  | .rti => [.r (stackAt s 1), .r (stackAt s 2), .r (stackAt s 3)]
  | .brk => [.w (stackAt s 0), .w (stackAt s (-1)), .w (stackAt s (-2)), .r 0xFFFE#16, .r 0xFFFF#16]
  | .jsr _ => [.w (stackAt s 0), .w (stackAt s (-1))]
  | .jmp (.indirect w) => [.r w, .r (word (hi w) (lo w + 1#8))]
  | .jmp (.absolute _) => []
  | .tax => []
  | .tay => []
  | .txa => []
  | .tya => []
  | .tsx => []
  | .txs => []
  | .inx => []
  | .iny => []
  | .dex => []
  | .dey => []
  | .bpl _ => []
  | .bmi _ => []
  | .bvc _ => []
  | .bvs _ => []
  | .bcc _ => []
  | .bcs _ => []
  | .bne _ => []
  | .beq _ => []
  | .clc => []
  | .sec => []
  | .cli => []
  | .sei => []
  | .clv => []
  | .cld => []
  | .sed => []
  | .nop => []
  | .unknown _ => []

/-- The instruction fetch's accesses (R54 points 1 and 2): as many bytes as the size, from PC upward. -/
def fetchAccesses (size : Nat) (pc : Word) : List AccessAt :=
  (List.range size).map (fun k => .r (pc + BitVec.ofNat 16 k))

/-- The accesses of an interrupt service (R242): three writes from SP downward, two vector reads. -/
def serviceAccesses (vec : Word) (s : State) : List AccessAt :=
  [.w (stackAt s 0), .w (stackAt s (-1)), .w (stackAt s (-2)), .r vec, .r (vec + 1#16)]

/-! ## Frames -/

/-- Every byte of memory reads as before. -/
def SameMemory (s t : State) : Prop := ∀ a : Word, t.mem.read a.toNat = s.mem.read a.toNat

/-- Every byte of memory outside the listed addresses reads as before. -/
def SameMemoryOutside (stored : List Word) (s t : State) : Prop :=
  ∀ a : Word, a ∉ stored → t.mem.read a.toNat = s.mem.read a.toNat

/-- The byte `v` was sent to address `e`: plain RAM reads it from now on (R65); elsewhere the model's RAM is untouched. -/
def Stored (e : Word) (v : Byte) (s t : State) : Prop :=
  t.mem.read e.toNat = if plainRam s.params e then v else s.mem.read e.toNat

/-- `run_state` and the parameters are as before. -/
def SameSystem (s t : State) : Prop := t.run = s.run ∧ t.params = s.params

/-- The four byte registers are as before. -/
def SameRegisters (s t : State) : Prop := t.a = s.a ∧ t.x = s.x ∧ t.y = s.y ∧ t.sp = s.sp

/-- The lines after the hooks of `k` accesses outside plain RAM, the first of them the `n`-th draw (R62, R65). -/
def afterHooks (l : Lines) (n : Nat) : Nat → Lines
  | 0 => l
  | k + 1 => (afterHooks l n k).applyAll (Config.hookOps (n + k))

/-- The interrupt bookkeeping is as before, but for what hooks did: on a platform that is all plain RAM it is unchanged, and
on any platform it is what the hooks of the drawn accesses made of it. -/
structure LinesKept (s t : State) : Prop where
  plain : s.params.hooked = [] → t.lines = s.lines ∧ t.draws = s.draws
  hooks : ∃ k, t.draws = s.draws + k ∧ t.lines = afterHooks s.lines s.draws k

/-- No outcome is signalled. -/
def NoOutcome (s t : State) : Prop := t.out.outcomes = s.out.outcomes

/-- The accesses that the instruction part made after its operand fetch are exactly those of R115's table. -/
def MadeItsAccesses (i : Instr) (s t : State) : Prop := accessesOf t.out = accessesOf s.out ++ instrAccesses i s

/-- The instruction part ended with `PC <- (PC0 + size) mod 65536` (R13), the cycles of R280 and R281, no outcome, and the accesses
of R115. -/
def Retired (i : Instr) (crossed : Bool) (s t : State) : Prop :=
  t.pc.toNat = (s.pc.toNat + i.size) % 65536 ∧
    t.out.cycles = s.out.cycles + minCycles i + crossCycles i crossed ∧ NoOutcome s t ∧ MadeItsAccesses i s t

/-- What no instruction of the register, read and flag families touches: memory, `run_state`, the parameters, and the lines
but for hooks. -/
def Kept (s t : State) : Prop := SameMemory s t ∧ SameSystem s t ∧ LinesKept s t

/-- The instruction runs to a next state, and that state satisfies `P`. -/
def Completes (i : Instr) (s : State) (P : State → Prop) : Prop := ∃ t, exec i s = .next t ∧ P t

/-- The instruction part ended with PC set to a target (R190), the cycles of R280, no outcome, and the accesses of R115. -/
def RetiredTo (i : Instr) (target : Word) (s t : State) : Prop :=
  t.pc = target ∧ t.out.cycles = s.out.cycles + minCycles i ∧ NoOutcome s t ∧ MadeItsAccesses i s t

/-- The flags after `SetZN(v)` (R10). -/
def flagsZN (f : Flags) (v : Byte) : Flags := { f with z := decide (v.toNat = 0), n := decide (v.toNat ≥ 128) }

/-- A 16-bit value from the two bytes that memory holds for it, low byte first (R51). -/
def wordIn (m : Memory) (al ah : Word) : Nat := (m.read al.toNat).toNat + 256 * (m.read ah.toNat).toNat

/-! ## Encodings -/

/-- An encoding of R86: the bytes, the size, the minimum cycles, and whether the page-cross cycle applies. -/
def Encoded (i : Instr) (bytes : List Byte) (cycles : Nat) (plusP : Bool) : Prop :=
  i.wellFormed = true ∧ encode i = bytes ∧ i.size = bytes.length ∧ minCycles i = cycles ∧
    ∀ crossed, crossCycles i crossed = (plusP && crossed).toNat

/-- The eight encodings shared in pattern by LDA, ADC, SBC, AND, ORA, EOR and CMP (R86). -/
def EightEncodings (f : Source → Instr) (imm zp zpx abs absx absy indx indy : Byte) : Prop :=
  ∀ (b : Byte) (w : Word),
    Encoded (f (.imm b)) [imm, b] 2 false ∧
    Encoded (f (.mem (.zeroPage b))) [zp, b] 3 false ∧
    Encoded (f (.mem (.zeroPageX b))) [zpx, b] 4 false ∧
    Encoded (f (.mem (.absolute w))) [abs, lo w, hi w] 4 false ∧
    Encoded (f (.mem (.absoluteX w))) [absx, lo w, hi w] 4 true ∧
    Encoded (f (.mem (.absoluteY w))) [absy, lo w, hi w] 4 true ∧
    Encoded (f (.mem (.indexedIndirect b))) [indx, b] 6 false ∧
    Encoded (f (.mem (.indirectIndexed b))) [indy, b] 5 true

/-- The four memory encodings of a read-modify-write instruction (R86, R170). -/
def ModifyEncodings (f : MemMode → Instr) (zp zpx abs absx : Byte) : Prop :=
  ∀ (b : Byte) (w : Word),
    Encoded (f (.zeroPage b)) [zp, b] 5 false ∧
    Encoded (f (.zeroPageX b)) [zpx, b] 6 false ∧
    Encoded (f (.absolute w)) [abs, lo w, hi w] 6 false ∧
    Encoded (f (.absoluteX w)) [absx, lo w, hi w] 7 false

/-! ## Shapes of effects -/

/-- What BRK, an NMI service and an IRQ service do alike (R242, R196): three stores downward from SP, SP minus 3, I set and
the other flags kept, PC from the vector. -/
def InterruptTaken (ret : Word) (brk : Bool) (vec : Word) (s t : State) : Prop :=
  Stored (stackAddr s.sp) (hi ret) s t ∧
    Stored (stackAddr (s.sp - 1#8)) (lo ret) s t ∧
    Stored (stackAddr (s.sp - 2#8)) (statusByte brk s.flags) s t ∧
    SameMemoryOutside [stackAddr s.sp, stackAddr (s.sp - 1#8), stackAddr (s.sp - 2#8)] s t ∧
    t.sp = s.sp - 3#8 ∧
    t.flags = { s.flags with i := true } ∧
    t.pc = (readWord vec ((push8 (statusByte brk s.flags) (push16 ret s)).setFlags { s.flags with i := true })).1 ∧
    (plainRam s.params vec = true → plainRam s.params (vec + 1#16) = true →
      t.pc.toNat = wordIn s.mem vec (vec + 1#16)) ∧
    t.a = s.a ∧ t.x = s.x ∧ t.y = s.y ∧ SameSystem s t

/-- A branch on `cond` (R197): taken, PC is NEXT plus the signed displacement with one extra cycle and one more when the page
changes; not taken, PC is NEXT. No register, flag or memory byte changes, and no access is made. -/
def Branches (cond : Prop) (d : Byte) (s t : State) : Prop :=
  (cond → (t.pc.toNat : Int) = (s.pc.toNat + 2 + d.toInt) % 65536 ∧
      t.out.cycles = s.out.cycles + 2 + 1 + (if t.pc.toNat / 256 = (s.pc.toNat + 2) % 65536 / 256 then 0 else 1)) ∧
    (¬cond → t.pc.toNat = (s.pc.toNat + 2) % 65536 ∧ t.out.cycles = s.out.cycles + 2) ∧
    SameRegisters s t ∧ t.flags = s.flags ∧ Kept s t ∧ NoOutcome s t ∧ accessesOf t.out = accessesOf s.out

/-- From `s`, the branch `f d` is taken exactly when `cond` holds, whatever its displacement (R197, R198). -/
def TakenIff (f : Byte → Instr) (cond : Prop) (s : State) : Prop :=
  ∀ d : Byte, Completes (f d) s (fun t => (cond → t.pc = branchTarget s.pc d) ∧ (¬cond → t.pc = s.pc + 2#16))

/-- A shift or rotate whose result on Carry `c` and byte `v` is `r c v` and whose new Carry is `out v` (R177), on A and on a
byte of memory. -/
def Shifts (f : Target → Instr) (r : Bool → Byte → Nat) (out : Byte → Bool) : Prop :=
  (∀ s : State, Completes (f .acc) s (fun t =>
    t.a.toNat = r s.flags.c s.a ∧
      t.flags = { flagsZN s.flags (BitVec.ofNat 8 (r s.flags.c s.a)) with c := out s.a } ∧
      t.x = s.x ∧ t.y = s.y ∧ t.sp = s.sp ∧ Retired (f .acc) false s t ∧ Kept s t)) ∧
  (∀ (m : MemMode) (s : State), Completes (f (.mem m)) s (fun t =>
    Stored (resolve m s).addr (BitVec.ofNat 8 (r s.flags.c (readMem m s).byte)) s t ∧
      SameMemoryOutside [(resolve m s).addr] s t ∧
      t.flags = { flagsZN s.flags (BitVec.ofNat 8 (r s.flags.c (readMem m s).byte)) with c := out (readMem m s).byte } ∧
      SameRegisters s t ∧ Retired (f (.mem m)) (resolve m s).crossed s t ∧ SameSystem s t ∧ LinesKept s t))

/-- INC or DEC: one byte of memory replaced by the byte that `r` gives (R170 to R172). -/
def Modifies (f : MemMode → Instr) (r : Byte → Nat) : Prop :=
  ∀ (m : MemMode) (s : State), Completes (f m) s (fun t =>
    Stored (resolve m s).addr (BitVec.ofNat 8 (r (readMem m s).byte)) s t ∧
      SameMemoryOutside [(resolve m s).addr] s t ∧
      t.flags = flagsZN s.flags (BitVec.ofNat 8 (r (readMem m s).byte)) ∧
      SameRegisters s t ∧ Retired (f m) (resolve m s).crossed s t ∧ SameSystem s t ∧ LinesKept s t)

/-- A store of the byte `v s` (R123 to R125). -/
def Stores (f : MemMode → Instr) (v : State → Byte) : Prop :=
  ∀ (m : MemMode) (s : State), Completes (f m) s (fun t =>
    Stored (resolve m s).addr (v s) s t ∧ SameMemoryOutside [(resolve m s).addr] s t ∧
      SameRegisters s t ∧ t.flags = s.flags ∧ Retired (f m) (resolve m s).crossed s t ∧ SameSystem s t ∧ LinesKept s t)

/-- A compare of the register `reg s` with the operand (R157): C, Z and N of the comparison; nothing else changes. -/
def Compares (f : Source → Instr) (reg : State → Byte) : Prop :=
  ∀ (src : Source) (s : State), Completes (f src) s (fun t =>
    t.flags.c = decide ((reg s).toNat ≥ (readSource src s).byte.toNat) ∧
      t.flags.z = decide (reg s = (readSource src s).byte) ∧
      t.flags.n = decide (((reg s).toNat + 256 - (readSource src s).byte.toNat) % 256 ≥ 128) ∧
      t.flags.v = s.flags.v ∧ t.flags.d = s.flags.d ∧ t.flags.i = s.flags.i ∧
      SameRegisters s t ∧ Retired (f src) (readSource src s).crossed s t ∧ Kept s t)

/-- AND, ORA or EOR: A and SetZN from `op A M` (R151). -/
def Combines (f : Source → Instr) (op : Byte → Byte → Byte) : Prop :=
  ∀ (src : Source) (s : State), Completes (f src) s (fun t =>
    t.a = op s.a (readSource src s).byte ∧ t.flags = flagsZN s.flags (op s.a (readSource src s).byte) ∧
      t.x = s.x ∧ t.y = s.y ∧ t.sp = s.sp ∧ Retired (f src) (readSource src s).crossed s t ∧ Kept s t)

/-- A one-byte instruction without memory access that changes the flags to `g` of them and no register (R220 to R227). -/
def WritesFlags (i : Instr) (opcode : Byte) (g : Flags → Flags) : Prop :=
  Encoded i [opcode] 2 false ∧
    ∀ s : State, Completes i s (fun t => t.flags = g s.flags ∧ SameRegisters s t ∧ Retired i false s t ∧ Kept s t)

/-! ## Decimal numbers -/

/-- R160 on numbers: the low digits' sum with its correction, and `s`, the sum before the correction of the high digit. -/
def adcLow (a m c : Nat) : Nat := if a % 16 + m % 16 + c ≥ 10 then (a % 16 + m % 16 + c + 6) % 16 + 16 else a % 16 + m % 16 + c

/-- The sum before the correction of the high digit (R160, line `s`). -/
def adcSum (a m c : Nat) : Nat := a / 16 * 16 + m / 16 * 16 + adcLow a m c

/-- The sum after it (R160). -/
def adcFinal (a m c : Nat) : Nat := if adcSum a m c ≥ 160 then adcSum a m c + 96 else adcSum a m c

/-- R161 on numbers: the low digits' difference with its correction. -/
def sbcLow (a m c : Nat) : Int :=
  if (a % 16 : Int) - m % 16 + c - 1 < 0 then ((a % 16 : Int) - m % 16 + c - 1 - 6) % 16 - 16 else (a % 16 : Int) - m % 16 + c - 1

/-- The difference before the correction of the high digit (R161, line `t`). -/
def sbcDiff (a m c : Nat) : Int := (a / 16 * 16 : Int) - m / 16 * 16 + sbcLow a m c

/-- `val(b) = 10*b[7:4] + b[3:0]` of a packed decimal byte (R160). -/
def bcd (b : Byte) : Nat := 10 * (b.toNat / 16) + b.toNat % 16

/-- Both digits are 0 to 9 (R160). -/
def ValidBcd (b : Byte) : Prop := b.toNat / 16 ≤ 9 ∧ b.toNat % 16 ≤ 9

/-! ## Control -/

/-- The instructions that set PC themselves (R25): the jumps, calls, returns and BRK; the branches when taken. -/
def SetsPc (i : Instr) (s : State) : Prop :=
  match i with
  | .jmp _ => True
  | .jsr _ => True
  | .rts => True
  | .rti => True
  | .brk => True
  | .bpl _ => s.flags.n = false
  | .bmi _ => s.flags.n = true
  | .bvc _ => s.flags.v = false
  | .bvs _ => s.flags.v = true
  | .bcc _ => s.flags.c = false
  | .bcs _ => s.flags.c = true
  | .bne _ => s.flags.z = false
  | .beq _ => s.flags.z = true
  | .lda _ => False
  | .ldx _ => False
  | .ldy _ => False
  | .sta _ => False
  | .stx _ => False
  | .sty _ => False
  | .and _ => False
  | .ora _ => False
  | .eor _ => False
  | .bit _ => False
  | .adc _ => False
  | .sbc _ => False
  | .cmp _ => False
  | .cpx _ => False
  | .cpy _ => False
  | .inc _ => False
  | .dec _ => False
  | .asl _ => False
  | .lsr _ => False
  | .rol _ => False
  | .ror _ => False
  | .tax => False
  | .tay => False
  | .txa => False
  | .tya => False
  | .tsx => False
  | .txs => False
  | .inx => False
  | .iny => False
  | .dex => False
  | .dey => False
  | .pha => False
  | .php => False
  | .pla => False
  | .plp => False
  | .clc => False
  | .sec => False
  | .cli => False
  | .sei => False
  | .clv => False
  | .cld => False
  | .sed => False
  | .nop => False
  | .unknown _ => False

/-- The instructions that may change D: CLD, SED, PLP, RTI (R31). -/
def MayChangeD (i : Instr) : Prop := i.mnemonic ∈ [some .cld, some .sed, some .plp, some .rti]

/-- The instructions that may change I: CLI, SEI, PLP, RTI, BRK (R30). -/
def MayChangeI (i : Instr) : Prop := i.mnemonic ∈ [some .cli, some .sei, some .plp, some .rti, some .brk]

/-- The instructions that may change V: ADC, SBC, BIT, CLV, PLP, RTI (R33). -/
def MayChangeV (i : Instr) : Prop := i.mnemonic ∈ [some .adc, some .sbc, some .bit, some .clv, some .plp, some .rti]

/-- The instructions that may change C (R28). -/
def MayChangeC (i : Instr) : Prop :=
  i.mnemonic ∈ [some .adc, some .sbc, some .cmp, some .cpx, some .cpy, some .asl, some .lsr, some .rol, some .ror, some .sec,
    some .clc, some .plp, some .rti]

/-- The instructions that may change Z and N (R29, R34): the loads, the transfers but TXS, PLA, PLP, the logic, arithmetic and
compare instructions, the increments and decrements, the shifts and rotates, and RTI. -/
def MayChangeZN (i : Instr) : Prop :=
  i.mnemonic ∈ [some .lda, some .ldx, some .ldy, some .tax, some .tay, some .txa, some .tya, some .tsx, some .pla, some .plp,
    some .and, some .ora, some .eor, some .bit, some .adc, some .sbc, some .cmp, some .cpx, some .cpy, some .inc, some .dec,
    some .inx, some .iny, some .dex, some .dey, some .asl, some .lsr, some .rol, some .ror, some .rti]

end Sys2Proof.Safety
end

