-- ==== Sys2Proof/Certificates/Slice0/Obligations.lean ====
section
/-! DEFINITION. The statements about the model, for the provers. Each docstring names the rules of spec/ it formalises, or the
sections it is derived from. -/

open Sys2Proof Sys2Proof.Machine Sys2Proof.Safety

/-! ## The memory port, the stack and the status byte -/

/-- From R65: plain RAM answers with the last byte written, by the core or by `store_block`, and an access to it has no other effect.
The second clause, that an access elsewhere never changes what plain RAM holds, rests on the model's choice of log entry 2: R65 excepts
plain RAM addresses that a bank switch remaps, and in this model such an address is not plain RAM. -/
def Obligations.PortAnswersTheLastByteWritten : Prop :=
  (∀ (s : State) (a : Word) (v : Byte), plainRam s.params a = true →
    (memRead a (memWrite a v s)).1 = v ∧
      (memRead a s).1 = s.mem.read a.toNat ∧
      (∀ b : Word, b ≠ a → (memWrite a v s).mem.read b.toNat = s.mem.read b.toNat) ∧
      (memRead a s).2 = s.noteAccess (.read a (s.mem.read a.toNat)) ∧
      memWrite a v s = (s.setMem (memWrite a v s).mem).noteAccess (.write a v)) ∧
  (∀ (s : State) (a : Word) (v : Byte), plainRam s.params a = false →
    ∀ b : Word, plainRam s.params b = true →
      (memRead a s).2.mem.read b.toNat = s.mem.read b.toNat ∧ (memWrite a v s).mem.read b.toNat = s.mem.read b.toNat) ∧
  (∀ (s : State) (base : Word) (bytes : List Byte) (k : Nat) (v : Byte),
    bytes.length ≤ 65536 → bytes[k]? = some v → plainRam s.params (base + BitVec.ofNat 16 k) = true →
      (memRead (base + BitVec.ofNat 16 k) (storeBlock base bytes s)).1 = v)

/-- The model's own form of R62 and R65's "the answer is free" (log entry 3): an access outside plain RAM answers with the next free
value, signals on the lines what the next free value says, and advances the draw counter by one. -/
def Obligations.AccessesOutsidePlainRamDrawOnce : Prop :=
  ∀ (s : State) (a : Word) (v : Byte), plainRam s.params a = false →
    (memRead a s).1 = Config.portByte s.draws ∧
      (memRead a s).2.lines = s.lines.applyAll (Config.hookOps s.draws) ∧
      (memRead a s).2.draws = s.draws + 1 ∧
      (memRead a s).2.mem = s.mem ∧
      (memWrite a v s).lines = s.lines.applyAll (Config.hookOps s.draws) ∧
      (memWrite a v s).draws = s.draws + 1 ∧
      (memWrite a v s).mem = s.mem ∧
      SameRegisters s (memRead a s).2 ∧ SameRegisters s (memWrite a v s) ∧
      (memRead a s).2.flags = s.flags ∧ (memWrite a v s).flags = s.flags ∧
      (memRead a s).2.pc = s.pc ∧ (memWrite a v s).pc = s.pc

/-- R8: each word read is two byte reads, low byte first; the three differ only in where the high byte is read. -/
def Obligations.WordReadsAreTwoByteReadsLowByteFirst : Prop :=
  (∀ (a : Word) (s : State), ∃ ah : Word, ah.toNat = (a.toNat + 1) % 65536 ∧
    (readWord a s).1.toNat = (s.portByte a).toNat + 256 * ((memRead a s).2.portByte ah).toNat ∧
    accessesOf (readWord a s).2.out = accessesOf s.out ++ [.r a, .r ah]) ∧
  (∀ (p : Byte) (s : State), ∃ al ah : Word, al.toNat = p.toNat ∧ ah.toNat = (p.toNat + 1) % 256 ∧
    (readWordZP p s).1.toNat = (s.portByte al).toNat + 256 * ((memRead al s).2.portByte ah).toNat ∧
    accessesOf (readWordZP p s).2.out = accessesOf s.out ++ [.r al, .r ah]) ∧
  (∀ (a : Word) (s : State), ∃ ah : Word, ah.toNat = a.toNat / 256 * 256 + (a.toNat % 256 + 1) % 256 ∧
    (readWordPageWrap a s).1.toNat = (s.portByte a).toNat + 256 * ((memRead a s).2.portByte ah).toNat ∧
    accessesOf (readWordPageWrap a s).2.out = accessesOf s.out ++ [.r a, .r ah])

/-- R9, R24: a push stores at 0x0100 + SP and then decrements, a pull increments and then reads, SP modulo 256; Push16 sends
the high byte first, Pull16 takes the low byte first. -/
def Obligations.StackHelpersStayInPageOne : Prop :=
  (∀ (v : Byte) (s : State), ∃ e : Word, e.toNat = 0x100 + s.sp.toNat ∧
    Stored e v s (push8 v s) ∧ SameMemoryOutside [e] s (push8 v s) ∧
    (push8 v s).sp.toNat = (s.sp.toNat + 255) % 256 ∧ accessesOf (push8 v s).out = accessesOf s.out ++ [.w e]) ∧
  (∀ s : State, ∃ e : Word, e.toNat = 0x100 + (s.sp.toNat + 1) % 256 ∧
    (pull8 s).1 = s.portByte e ∧ (pull8 s).2.sp.toNat = (s.sp.toNat + 1) % 256 ∧ (pull8 s).2.mem = s.mem ∧
    accessesOf (pull8 s).2.out = accessesOf s.out ++ [.r e]) ∧
  (∀ (w : Word) (s : State), push16 w s = push8 (lo w) (push8 (hi w) s)) ∧
  (∀ s : State, (pull16 s).1.toNat = (pull8 s).1.toNat + 256 * (pull8 (pull8 s).2).1.toNat ∧
    (pull16 s).2 = (pull8 (pull8 s).2).2)

/-- R141, with the stack page plain RAM: a pull undoes a push; pushed bytes lie downward from SP; the 257th overwrites the first;
a pull changes no memory. -/
def Obligations.PushesLieDownwardAndWrap : Prop :=
  ∀ (s : State), (∀ p : Byte, plainRam s.params (stackAddr p) = true) →
    (∀ v : Byte, (pull8 (push8 v s)).1 = v ∧ (pull8 (push8 v s)).2.sp = s.sp) ∧
    (∀ vs : List Byte, vs.length ≤ 256 →
      (vs.foldl (fun t v => push8 v t) s).sp = s.sp - BitVec.ofNat 8 vs.length ∧
      ∀ (k : Nat) (v : Byte), vs[k]? = some v →
        (vs.foldl (fun t v => push8 v t) s).mem.read (stackAddr (s.sp - BitVec.ofNat 8 k)).toNat = v) ∧
    (∀ (vs : List Byte) (v : Byte), vs.length = 256 →
      ((vs ++ [v]).foldl (fun t v => push8 v t) s).mem.read (stackAddr s.sp).toNat = v) ∧
    (pull8 s).2.mem = s.mem

/-- R11, R27: the bits of the pushed status byte, and what a pulled byte gives; a pull of a pushed byte restores the flags. -/
def Obligations.StatusByteLayout : Prop :=
  (∀ (b : Bool) (f : Flags),
    (statusByte b f).getLsbD 7 = f.n ∧ (statusByte b f).getLsbD 6 = f.v ∧ (statusByte b f).getLsbD 5 = true ∧
      (statusByte b f).getLsbD 4 = b ∧ (statusByte b f).getLsbD 3 = f.d ∧ (statusByte b f).getLsbD 2 = f.i ∧
      (statusByte b f).getLsbD 1 = f.z ∧ (statusByte b f).getLsbD 0 = f.c ∧ loadStatus (statusByte b f) = f) ∧
  (∀ v : Byte, (loadStatus v).n = v.getLsbD 7 ∧ (loadStatus v).v = v.getLsbD 6 ∧ (loadStatus v).d = v.getLsbD 3 ∧
    (loadStatus v).i = v.getLsbD 2 ∧ (loadStatus v).z = v.getLsbD 1 ∧ (loadStatus v).c = v.getLsbD 0)

/-! ## Addressing modes -/

/-- R117: the effective address and the `crossed` flag of every mode; an immediate operand has no address and never crosses. -/
def Obligations.EffectiveAddressesOfTheModes : Prop :=
  ∀ (b : Byte) (w : Word) (s : State),
    ((readSource (.imm b) s).byte = b ∧ (readSource (.imm b) s).crossed = false) ∧
    ((resolve (.zeroPage b) s).addr.toNat = b.toNat ∧ (resolve (.zeroPage b) s).crossed = false) ∧
    ((resolve (.zeroPageX b) s).addr.toNat = (b.toNat + s.x.toNat) % 256 ∧ (resolve (.zeroPageX b) s).crossed = false) ∧
    ((resolve (.zeroPageY b) s).addr.toNat = (b.toNat + s.y.toNat) % 256 ∧ (resolve (.zeroPageY b) s).crossed = false) ∧
    ((resolve (.absolute w) s).addr = w ∧ (resolve (.absolute w) s).crossed = false) ∧
    (∃ e, e = (w.toNat + s.x.toNat) % 65536 ∧ (resolve (.absoluteX w) s).addr.toNat = e ∧
      (resolve (.absoluteX w) s).crossed = decide (w.toNat / 256 ≠ e / 256)) ∧
    (∃ e, e = (w.toNat + s.y.toNat) % 65536 ∧ (resolve (.absoluteY w) s).addr.toNat = e ∧
      (resolve (.absoluteY w) s).crossed = decide (w.toNat / 256 ≠ e / 256)) ∧
    (resolveJump (.absolute w) s = (w, s) ∧ (resolveJump (.indirect w) s).1 = (readWordPageWrap w s).1) ∧
    (∃ p : Byte, p.toNat = (b.toNat + s.x.toNat) % 256 ∧
      (resolve (.indexedIndirect b) s).addr = (readWordZP p s).1 ∧ (resolve (.indexedIndirect b) s).crossed = false) ∧
    (∃ e, e = ((readWordZP b s).1.toNat + s.y.toNat) % 65536 ∧ (resolve (.indirectIndexed b) s).addr.toNat = e ∧
      (resolve (.indirectIndexed b) s).crossed = decide ((readWordZP b s).1.toNat / 256 ≠ e / 256)) ∧
    ((branchTarget s.pc b).toNat : Int) = (s.pc.toNat + 2 + b.toInt) % 65536 ∧
    branchCrossed s.pc b = decide ((s.pc.toNat + 2) % 65536 / 256 ≠ (branchTarget s.pc b).toNat / 256)

/-- R114: an immediate operand is the byte itself, with no access; a memory operand is exactly one data read at E after the pointer
reads. The resolver and the read change nothing but the outputs and what hooks do (R100). -/
def Obligations.OperandValueIsOneReadAtE : Prop :=
  (∀ (v : Byte) (s : State), (readSource (.imm v) s).byte = v ∧ (readSource (.imm v) s).state = s) ∧
  (∀ (m : MemMode) (s : State),
    (readSource (.mem m) s).byte = (resolve m s).state.portByte (resolve m s).addr ∧
      (plainRam s.params (resolve m s).addr = true → (readSource (.mem m) s).byte = s.mem.read (resolve m s).addr.toNat) ∧
      accessesOf (readSource (.mem m) s).state.out = accessesOf s.out ++ pointerAccesses m s ++ [.r (resolve m s).addr] ∧
      SameRegisters s (readSource (.mem m) s).state ∧ (readSource (.mem m) s).state.flags = s.flags ∧
      (readSource (.mem m) s).state.pc = s.pc ∧ (readSource (.mem m) s).state.mem = s.mem ∧
      SameSystem s (readSource (.mem m) s).state ∧ LinesKept s (readSource (.mem m) s).state)

/-! ## Loads, stores and transfers -/

/-- R120 to R122: LDA, LDX and LDY write their register, Z and N from the operand, and nothing else; their encodings. -/
def Obligations.LoadsWriteTheirRegisterAndZN : Prop :=
  (∀ (src : Source) (s : State), Completes (.lda src) s (fun t =>
    t.a = (readSource src s).byte ∧ t.flags = flagsZN s.flags (readSource src s).byte ∧
      t.x = s.x ∧ t.y = s.y ∧ t.sp = s.sp ∧ Retired (.lda src) (readSource src s).crossed s t ∧ Kept s t)) ∧
  (∀ (src : Source) (s : State), Completes (.ldx src) s (fun t =>
    t.x = (readSource src s).byte ∧ t.flags = flagsZN s.flags (readSource src s).byte ∧
      t.a = s.a ∧ t.y = s.y ∧ t.sp = s.sp ∧ Retired (.ldx src) (readSource src s).crossed s t ∧ Kept s t)) ∧
  (∀ (src : Source) (s : State), Completes (.ldy src) s (fun t =>
    t.y = (readSource src s).byte ∧ t.flags = flagsZN s.flags (readSource src s).byte ∧
      t.a = s.a ∧ t.x = s.x ∧ t.sp = s.sp ∧ Retired (.ldy src) (readSource src s).crossed s t ∧ Kept s t)) ∧
  EightEncodings .lda 0xA9#8 0xA5#8 0xB5#8 0xAD#8 0xBD#8 0xB9#8 0xA1#8 0xB1#8 ∧
  (∀ (b : Byte) (w : Word),
    Encoded (.ldx (.imm b)) [0xA2#8, b] 2 false ∧ Encoded (.ldx (.mem (.zeroPage b))) [0xA6#8, b] 3 false ∧
      Encoded (.ldx (.mem (.zeroPageY b))) [0xB6#8, b] 4 false ∧
      Encoded (.ldx (.mem (.absolute w))) [0xAE#8, lo w, hi w] 4 false ∧
      Encoded (.ldx (.mem (.absoluteY w))) [0xBE#8, lo w, hi w] 4 true ∧
      Encoded (.ldy (.imm b)) [0xA0#8, b] 2 false ∧ Encoded (.ldy (.mem (.zeroPage b))) [0xA4#8, b] 3 false ∧
      Encoded (.ldy (.mem (.zeroPageX b))) [0xB4#8, b] 4 false ∧
      Encoded (.ldy (.mem (.absolute w))) [0xAC#8, lo w, hi w] 4 false ∧
      Encoded (.ldy (.mem (.absoluteX w))) [0xBC#8, lo w, hi w] 4 true)

/-- R123 to R125: STA, STX and STY send their register to E and change nothing else; their encodings. -/
def Obligations.StoresSendTheirRegisterToE : Prop :=
  Stores .sta State.a ∧ Stores .stx State.x ∧ Stores .sty State.y ∧
  (∀ (b : Byte) (w : Word),
    Encoded (.sta (.zeroPage b)) [0x85#8, b] 3 false ∧ Encoded (.sta (.zeroPageX b)) [0x95#8, b] 4 false ∧
      Encoded (.sta (.absolute w)) [0x8D#8, lo w, hi w] 4 false ∧
      Encoded (.sta (.absoluteX w)) [0x9D#8, lo w, hi w] 5 false ∧
      Encoded (.sta (.absoluteY w)) [0x99#8, lo w, hi w] 5 false ∧
      Encoded (.sta (.indexedIndirect b)) [0x81#8, b] 6 false ∧
      Encoded (.sta (.indirectIndexed b)) [0x91#8, b] 6 false ∧
      Encoded (.stx (.zeroPage b)) [0x86#8, b] 3 false ∧ Encoded (.stx (.zeroPageY b)) [0x96#8, b] 4 false ∧
      Encoded (.stx (.absolute w)) [0x8E#8, lo w, hi w] 4 false ∧
      Encoded (.sty (.zeroPage b)) [0x84#8, b] 3 false ∧ Encoded (.sty (.zeroPageX b)) [0x94#8, b] 4 false ∧
      Encoded (.sty (.absolute w)) [0x8C#8, lo w, hi w] 4 false)

/-- R126 to R130: TAX, TAY, TXA, TYA and TSX copy a register and set Z and N from the byte. -/
def Obligations.TransfersCopyAndSetZN : Prop :=
  (Encoded .tax [0xAA#8] 2 false ∧ Encoded .tay [0xA8#8] 2 false ∧ Encoded .txa [0x8A#8] 2 false ∧
    Encoded .tya [0x98#8] 2 false ∧ Encoded .tsx [0xBA#8] 2 false) ∧
  ∀ s : State,
    Completes .tax s (fun t => t.x = s.a ∧ t.flags = flagsZN s.flags s.a ∧
      t.a = s.a ∧ t.y = s.y ∧ t.sp = s.sp ∧ Retired .tax false s t ∧ Kept s t) ∧
    Completes .tay s (fun t => t.y = s.a ∧ t.flags = flagsZN s.flags s.a ∧
      t.a = s.a ∧ t.x = s.x ∧ t.sp = s.sp ∧ Retired .tay false s t ∧ Kept s t) ∧
    Completes .txa s (fun t => t.a = s.x ∧ t.flags = flagsZN s.flags s.x ∧
      t.x = s.x ∧ t.y = s.y ∧ t.sp = s.sp ∧ Retired .txa false s t ∧ Kept s t) ∧
    Completes .tya s (fun t => t.a = s.y ∧ t.flags = flagsZN s.flags s.y ∧
      t.x = s.x ∧ t.y = s.y ∧ t.sp = s.sp ∧ Retired .tya false s t ∧ Kept s t) ∧
    Completes .tsx s (fun t => t.x = s.sp ∧ t.flags = flagsZN s.flags s.sp ∧
      t.a = s.a ∧ t.y = s.y ∧ t.sp = s.sp ∧ Retired .tsx false s t ∧ Kept s t)

/-- R131: TXS copies X to SP and writes no flag. -/
def Obligations.TxsWritesSpAndNoFlag : Prop :=
  Encoded .txs [0x9A#8] 2 false ∧
  ∀ s : State, Completes .txs s (fun t => t.sp = s.x ∧ t.flags = s.flags ∧ t.a = s.a ∧ t.x = s.x ∧ t.y = s.y ∧
    Retired .txs false s t ∧ Kept s t)

/-! ## Stack instructions -/

/-- R142, R143: PHA and PHP push one byte and change nothing else; PHP's byte has bits 5 and 4 set. -/
def Obligations.PushesStoreOneByteAndDecrementSp : Prop :=
  Encoded .pha [0x48#8] 3 false ∧ Encoded .php [0x08#8] 3 false ∧
  (∀ s : State, Completes .pha s (fun t =>
    Stored (stackAddr s.sp) s.a s t ∧ SameMemoryOutside [stackAddr s.sp] s t ∧ t.sp = s.sp - 1#8 ∧ t.a = s.a ∧
      t.x = s.x ∧ t.y = s.y ∧ t.flags = s.flags ∧ Retired .pha false s t ∧ SameSystem s t ∧ LinesKept s t)) ∧
  (∀ s : State, ∃ p : Byte,
    (p.getLsbD 7 = s.flags.n ∧ p.getLsbD 6 = s.flags.v ∧ p.getLsbD 5 = true ∧ p.getLsbD 4 = true ∧
      p.getLsbD 3 = s.flags.d ∧ p.getLsbD 2 = s.flags.i ∧ p.getLsbD 1 = s.flags.z ∧ p.getLsbD 0 = s.flags.c) ∧
    Completes .php s (fun t =>
      Stored (stackAddr s.sp) p s t ∧ SameMemoryOutside [stackAddr s.sp] s t ∧ t.sp = s.sp - 1#8 ∧ t.a = s.a ∧
        t.x = s.x ∧ t.y = s.y ∧ t.flags = s.flags ∧ Retired .php false s t ∧ SameSystem s t ∧ LinesKept s t))

/-- R144, and the instruction part of R145: PLA pulls A with Z and N; PLP pulls the six stored flags and ignores bits 5 and 4. -/
def Obligations.PullsIncrementSpAndLoad : Prop :=
  Encoded .pla [0x68#8] 4 false ∧ Encoded .plp [0x28#8] 4 false ∧
  (∀ s : State, Completes .pla s (fun t =>
    t.a = s.portByte (stackAddr (s.sp + 1#8)) ∧ t.flags = flagsZN s.flags (s.portByte (stackAddr (s.sp + 1#8))) ∧
      t.sp = s.sp + 1#8 ∧ t.x = s.x ∧ t.y = s.y ∧ Retired .pla false s t ∧ Kept s t)) ∧
  (∀ s : State, ∃ p : Byte, p = s.portByte (stackAddr (s.sp + 1#8)) ∧ Completes .plp s (fun t =>
    t.flags = { n := p.getLsbD 7, v := p.getLsbD 6, d := p.getLsbD 3, i := p.getLsbD 2, z := p.getLsbD 1,
                c := p.getLsbD 0 } ∧
      t.sp = s.sp + 1#8 ∧ t.a = s.a ∧ t.x = s.x ∧ t.y = s.y ∧ Retired .plp false s t ∧ Kept s t))

/-- LAW9 of spec/95 (from R142 to R146): PHA then PLA leaves A and SP, PHP then PLP leaves every stored flag and SP, where the stack
byte is plain RAM. -/
def Obligations.PullUndoesPush : Prop :=
  ∀ s : State, plainRam s.params (stackAddr s.sp) = true →
    (∃ t u, exec .pha s = .next t ∧ exec .pla t = .next u ∧ u.a = s.a ∧ u.sp = s.sp ∧ u.flags = flagsZN s.flags s.a) ∧
    (∃ t u, exec .php s = .next t ∧ exec .plp t = .next u ∧ u.flags = s.flags ∧ u.sp = s.sp ∧ u.a = s.a) ∧
    (∃ t u, exec .php s = .next t ∧ exec .pla t = .next u ∧ u.sp = s.sp ∧ u.a.getLsbD 5 = true ∧
      u.a.getLsbD 4 = true ∧ loadStatus u.a = s.flags)

/-! ## Logic, arithmetic and compare -/

/-- R151 to R154: AND, ORA and EOR combine A with the operand bit by bit and set Z and N from the new A. -/
def Obligations.LogicCombinesBitwise : Prop :=
  (∃ op : Byte → Byte → Byte, (∀ a m k, (op a m).getLsbD k = (a.getLsbD k && m.getLsbD k)) ∧ Combines .and op) ∧
  (∃ op : Byte → Byte → Byte, (∀ a m k, (op a m).getLsbD k = (a.getLsbD k || m.getLsbD k)) ∧ Combines .ora op) ∧
  (∃ op : Byte → Byte → Byte, (∀ a m k, (op a m).getLsbD k = (a.getLsbD k ^^ m.getLsbD k)) ∧ Combines .eor op) ∧
  EightEncodings .and 0x29#8 0x25#8 0x35#8 0x2D#8 0x3D#8 0x39#8 0x21#8 0x31#8 ∧
  EightEncodings .ora 0x09#8 0x05#8 0x15#8 0x0D#8 0x1D#8 0x19#8 0x01#8 0x11#8 ∧
  EightEncodings .eor 0x49#8 0x45#8 0x55#8 0x4D#8 0x5D#8 0x59#8 0x41#8 0x51#8

/-- R155: BIT takes Z from A and M, N and V from bits 7 and 6 of M, and changes nothing else. -/
def Obligations.BitTestsWithoutChangingA : Prop :=
  (∀ (m : MemMode) (s : State), Completes (.bit m) s (fun t =>
    (t.flags.z = true ↔ ∀ k, (s.a.getLsbD k && (readMem m s).byte.getLsbD k) = false) ∧
      t.flags.n = (readMem m s).byte.getLsbD 7 ∧ t.flags.v = (readMem m s).byte.getLsbD 6 ∧
      t.flags.c = s.flags.c ∧ t.flags.d = s.flags.d ∧ t.flags.i = s.flags.i ∧
      SameRegisters s t ∧ Retired (.bit m) (resolve m s).crossed s t ∧ Kept s t)) ∧
  (∀ (b : Byte) (w : Word), Encoded (.bit (.zeroPage b)) [0x24#8, b] 3 false ∧
    Encoded (.bit (.absolute w)) [0x2C#8, lo w, hi w] 4 false)

/-- R156, R158: binary ADC is the exact sum of A, M and C, with V as the signed range says; decimal ADC is the algorithm of R160, for every operand;
D and I are unchanged. -/
def Obligations.AdcAddsWithCarry : Prop :=
  (∀ (p : Params) (f : Flags), decimalMode p f = true ↔ f.d = true ∧ p.decimal = .nmos) ∧
  (∀ (src : Source) (s : State), Completes (.adc src) s (fun t =>
    (decimalMode s.params s.flags = false →
      t.a.toNat + 256 * t.flags.c.toNat = s.a.toNat + (readSource src s).byte.toNat + s.flags.c.toNat ∧
        (t.flags.v = true ↔
          s.a.toInt + (readSource src s).byte.toInt + s.flags.c.toNat < -128 ∨
            127 < s.a.toInt + (readSource src s).byte.toInt + s.flags.c.toNat) ∧
        t.flags.z = decide (t.a.toNat = 0) ∧ t.flags.n = decide (t.a.toNat ≥ 128)) ∧
    (decimalMode s.params s.flags = true →
      t.a.toNat = adcFinal s.a.toNat (readSource src s).byte.toNat s.flags.c.toNat % 256 ∧
        t.flags.c = decide (adcFinal s.a.toNat (readSource src s).byte.toNat s.flags.c.toNat ≥ 256) ∧
        t.flags.n = decide (adcSum s.a.toNat (readSource src s).byte.toNat s.flags.c.toNat % 256 ≥ 128) ∧
        t.flags.v = (decide (s.a.toNat / 128 = (readSource src s).byte.toNat / 128) &&
          decide (s.a.toNat / 128 ≠ adcSum s.a.toNat (readSource src s).byte.toNat s.flags.c.toNat % 256 / 128)) ∧
        t.flags.z = decide ((s.a.toNat + (readSource src s).byte.toNat + s.flags.c.toNat) % 256 = 0)) ∧
    t.flags.d = s.flags.d ∧ t.flags.i = s.flags.i ∧ t.x = s.x ∧ t.y = s.y ∧ t.sp = s.sp ∧
    Retired (.adc src) (readSource src s).crossed s t ∧ Kept s t)) ∧
  EightEncodings .adc 0x69#8 0x65#8 0x75#8 0x6D#8 0x7D#8 0x79#8 0x61#8 0x71#8

/-- R159: SBC's flags are those of the binary subtraction A - M - (1 - C); its byte is that difference modulo 256, or
the result of R161's algorithm in decimal mode, for every operand. -/
def Obligations.SbcSubtractsWithBorrow : Prop :=
  (∀ (src : Source) (s : State), Completes (.sbc src) s (fun t =>
    (decimalMode s.params s.flags = false →
      (t.a.toNat : Int) = (s.a.toNat - (readSource src s).byte.toNat - (1 - s.flags.c.toNat : Int)) % 256) ∧
    (decimalMode s.params s.flags = true →
      (t.a.toNat : Int) =
        (if sbcDiff s.a.toNat (readSource src s).byte.toNat s.flags.c.toNat < 0
          then sbcDiff s.a.toNat (readSource src s).byte.toNat s.flags.c.toNat - 96
          else sbcDiff s.a.toNat (readSource src s).byte.toNat s.flags.c.toNat) % 256) ∧
    t.flags.c = decide (s.a.toNat + s.flags.c.toNat ≥ (readSource src s).byte.toNat + 1) ∧
    (t.flags.v = true ↔
      s.a.toInt - (readSource src s).byte.toInt - (1 - s.flags.c.toNat : Int) < -128 ∨
        127 < s.a.toInt - (readSource src s).byte.toInt - (1 - s.flags.c.toNat : Int)) ∧
    t.flags.z = decide ((s.a.toNat - (readSource src s).byte.toNat - (1 - s.flags.c.toNat : Int)) % 256 = 0) ∧
    t.flags.n = decide ((s.a.toNat - (readSource src s).byte.toNat - (1 - s.flags.c.toNat : Int)) % 256 ≥ 128) ∧
    t.flags.d = s.flags.d ∧ t.flags.i = s.flags.i ∧ t.x = s.x ∧ t.y = s.y ∧ t.sp = s.sp ∧
    Retired (.sbc src) (readSource src s).crossed s t ∧ Kept s t)) ∧
  EightEncodings .sbc 0xE9#8 0xE5#8 0xF5#8 0xED#8 0xFD#8 0xF9#8 0xE1#8 0xF1#8

/-- LAW7 of spec/95 (from R160, R161): on valid packed decimal operands the decimal sum and difference are the decimal ones, and the
result is packed decimal again. -/
def Obligations.DecimalModeComputesDecimalNumbers : Prop :=
  ∀ (a m : Byte) (c : Bool), ValidBcd a → ValidBcd m →
    (ValidBcd (adcDecimal a m c).byte ∧
      bcd (adcDecimal a m c).byte + 100 * (adcDecimal a m c).c.toNat = bcd a + bcd m + c.toNat) ∧
    (ValidBcd (sbcDecimalResult a m c) ∧
      (bcd (sbcDecimalResult a m c) : Int) = (bcd a - bcd m - (1 - c.toNat : Int)) % 100 ∧
      ((sbcResult true a m c).c = true ↔ bcd m + 1 ≤ bcd a + c.toNat))

/-- R157, R162 to R164: CMP, CPX and CPY set C, Z and N of the comparison and leave the register and V, D, I alone. -/
def Obligations.ComparesSetCarryWhenNotLess : Prop :=
  Compares .cmp State.a ∧ Compares .cpx State.x ∧ Compares .cpy State.y ∧
  EightEncodings .cmp 0xC9#8 0xC5#8 0xD5#8 0xCD#8 0xDD#8 0xD9#8 0xC1#8 0xD1#8 ∧
  (∀ (b : Byte) (w : Word),
    Encoded (.cpx (.imm b)) [0xE0#8, b] 2 false ∧ Encoded (.cpx (.mem (.zeroPage b))) [0xE4#8, b] 3 false ∧
      Encoded (.cpx (.mem (.absolute w))) [0xEC#8, lo w, hi w] 4 false ∧
      Encoded (.cpy (.imm b)) [0xC0#8, b] 2 false ∧ Encoded (.cpy (.mem (.zeroPage b))) [0xC4#8, b] 3 false ∧
      Encoded (.cpy (.mem (.absolute w))) [0xCC#8, lo w, hi w] 4 false)

/-! ## Increments, decrements, shifts and rotates -/

/-- R171, R172: INC and DEC replace the byte at E by its successor or predecessor modulo 256 and set Z and N; C and V are
unchanged. -/
def Obligations.IncDecMemoryModifyOneByte : Prop :=
  Modifies .inc (fun v => (v.toNat + 1) % 256) ∧ Modifies .dec (fun v => (v.toNat + 255) % 256) ∧
  ModifyEncodings .inc 0xE6#8 0xF6#8 0xEE#8 0xFE#8 ∧ ModifyEncodings .dec 0xC6#8 0xD6#8 0xCE#8 0xDE#8

/-- R173 to R176: INX, INY, DEX and DEY count modulo 256 and set Z and N. -/
def Obligations.IndexRegistersCountModulo256 : Prop :=
  (Encoded .inx [0xE8#8] 2 false ∧ Encoded .iny [0xC8#8] 2 false ∧ Encoded .dex [0xCA#8] 2 false ∧
    Encoded .dey [0x88#8] 2 false) ∧
  ∀ s : State,
    Completes .inx s (fun t => t.x.toNat = (s.x.toNat + 1) % 256 ∧ t.flags = flagsZN s.flags t.x ∧
      t.a = s.a ∧ t.y = s.y ∧ t.sp = s.sp ∧ Retired .inx false s t ∧ Kept s t) ∧
    Completes .iny s (fun t => t.y.toNat = (s.y.toNat + 1) % 256 ∧ t.flags = flagsZN s.flags t.y ∧
      t.a = s.a ∧ t.x = s.x ∧ t.sp = s.sp ∧ Retired .iny false s t ∧ Kept s t) ∧
    Completes .dex s (fun t => t.x.toNat = (s.x.toNat + 255) % 256 ∧ t.flags = flagsZN s.flags t.x ∧
      t.a = s.a ∧ t.y = s.y ∧ t.sp = s.sp ∧ Retired .dex false s t ∧ Kept s t) ∧
    Completes .dey s (fun t => t.y.toNat = (s.y.toNat + 255) % 256 ∧ t.flags = flagsZN s.flags t.y ∧
      t.a = s.a ∧ t.x = s.x ∧ t.sp = s.sp ∧ Retired .dey false s t ∧ Kept s t)

/-- R179 to R182: ASL, LSR, ROL and ROR move the byte by one position; the bit shifted out is the new Carry, and a rotate
takes the old Carry into the vacated bit. -/
def Obligations.ShiftsMoveOneBitThroughCarry : Prop :=
  Shifts .asl (fun _ v => 2 * v.toNat % 256) (fun v => v.getLsbD 7) ∧
  Shifts .lsr (fun _ v => v.toNat / 2) (fun v => v.getLsbD 0) ∧
  Shifts .rol (fun c v => 2 * v.toNat % 256 + c.toNat) (fun v => v.getLsbD 7) ∧
  Shifts .ror (fun c v => v.toNat / 2 + 128 * c.toNat) (fun v => v.getLsbD 0) ∧
  (Encoded (.asl .acc) [0x0A#8] 2 false ∧ Encoded (.lsr .acc) [0x4A#8] 2 false ∧
    Encoded (.rol .acc) [0x2A#8] 2 false ∧ Encoded (.ror .acc) [0x6A#8] 2 false) ∧
  ModifyEncodings (fun m => .asl (.mem m)) 0x06#8 0x16#8 0x0E#8 0x1E#8 ∧
  ModifyEncodings (fun m => .lsr (.mem m)) 0x46#8 0x56#8 0x4E#8 0x5E#8 ∧
  ModifyEncodings (fun m => .rol (.mem m)) 0x26#8 0x36#8 0x2E#8 0x3E#8 ∧
  ModifyEncodings (fun m => .ror (.mem m)) 0x66#8 0x76#8 0x6E#8 0x7E#8

/-- LAW8 of spec/95 (from R177): the rotates are 9-bit rotations through Carry, so that nine of them on the accumulator restore A
and C; and a ROR undoes a ROL. -/
def Obligations.NineRotationsRestoreAAndC : Prop :=
  ∀ (s : State) (i : Instr), i = .rol .acc ∨ i = .ror .acc →
    ∃ t : Nat → State, t 0 = s ∧ (∀ k, exec i (t k) = .next (t (k + 1))) ∧ (t 9).a = s.a ∧ (t 9).flags.c = s.flags.c

/-! ## Control flow -/

/-- R191, R192, R276: JMP sets PC to E and changes nothing else; the Indirect mode reads the high byte of its target inside the
pointer's page. -/
def Obligations.JmpSetsPcWithThePageWrap : Prop :=
  (∀ (w : Word) (s : State), Completes (.jmp (.absolute w)) s (fun t =>
    RetiredTo (.jmp (.absolute w)) w s t ∧ SameRegisters s t ∧ t.flags = s.flags ∧ Kept s t)) ∧
  (∀ (w : Word) (s : State), ∃ wh : Word,
    (lo w = 0xFF#8 → wh = word (hi w) 0x00#8) ∧ (lo w ≠ 0xFF#8 → wh = w + 1#16) ∧
    Completes (.jmp (.indirect w)) s (fun t =>
      RetiredTo (.jmp (.indirect w)) (word ((memRead w s).2.portByte wh) (s.portByte w)) s t ∧
        (plainRam s.params w = true → plainRam s.params wh = true → t.pc.toNat = wordIn s.mem w wh) ∧
        SameRegisters s t ∧ t.flags = s.flags ∧ Kept s t)) ∧
  (∀ w : Word, Encoded (.jmp (.absolute w)) [0x4C#8, lo w, hi w] 3 false ∧
    Encoded (.jmp (.indirect w)) [0x6C#8, lo w, hi w] 5 false)

/-- R193: JSR pushes the address of its own last byte, high byte first, and jumps. -/
def Obligations.JsrPushesItsLastByteAddress : Prop :=
  (∀ w : Word, Encoded (.jsr w) [0x20#8, lo w, hi w] 6 false) ∧
  ∀ (w : Word) (s : State), ∃ ret : Word, ret.toNat = (s.pc.toNat + 2) % 65536 ∧
    Completes (.jsr w) s (fun t =>
      Stored (stackAddr s.sp) (hi ret) s t ∧ Stored (stackAddr (s.sp - 1#8)) (lo ret) s t ∧
        SameMemoryOutside [stackAddr s.sp, stackAddr (s.sp - 1#8)] s t ∧ t.sp = s.sp - 2#8 ∧
        t.a = s.a ∧ t.x = s.x ∧ t.y = s.y ∧ t.flags = s.flags ∧ RetiredTo (.jsr w) w s t ∧ SameSystem s t ∧
        LinesKept s t)

/-- R194: RTS pulls a word, low byte first, and continues at the address after it. -/
def Obligations.RtsPullsAndAddsOne : Prop :=
  Encoded .rts [0x60#8] 6 false ∧
  ∀ s : State, Completes .rts s (fun t =>
    RetiredTo .rts ((pull16 s).1 + 1#16) s t ∧
      (plainRam s.params (stackAddr (s.sp + 1#8)) = true → plainRam s.params (stackAddr (s.sp + 2#8)) = true →
        t.pc.toNat = (wordIn s.mem (stackAddr (s.sp + 1#8)) (stackAddr (s.sp + 2#8)) + 1) % 65536) ∧
      t.sp = s.sp + 2#8 ∧ t.a = s.a ∧ t.x = s.x ∧ t.y = s.y ∧ t.flags = s.flags ∧ Kept s t)

/-- R195: RTI loads the six flags from the first pulled byte and PC from the next two, with nothing added. -/
def Obligations.RtiRestoresFlagsAndPc : Prop :=
  Encoded .rti [0x40#8] 6 false ∧
  ∀ s : State, Completes .rti s (fun t =>
    t.flags = loadStatus (s.portByte (stackAddr (s.sp + 1#8))) ∧
      RetiredTo .rti (pull16 (pull8 s).2).1 s t ∧
      (plainRam s.params (stackAddr (s.sp + 2#8)) = true → plainRam s.params (stackAddr (s.sp + 3#8)) = true →
        t.pc.toNat = wordIn s.mem (stackAddr (s.sp + 2#8)) (stackAddr (s.sp + 3#8))) ∧
      t.sp = s.sp + 3#8 ∧ t.a = s.a ∧ t.x = s.x ∧ t.y = s.y ∧ Kept s t)

/-- R196: BRK takes the interrupt sequence with return address PC0 + 2, Break = 1 and the IRQ vector, is not masked by I, and is
signalled; at its boundary a pending NMI is serviced on top, an IRQ is not. -/
def Obligations.BrkTakesTheInterruptSequence : Prop :=
  Encoded .brk [0x00#8] 7 false ∧
  ∀ s : State, ∃ ret : Word, ret.toNat = (s.pc.toNat + 2) % 65536 ∧
    Completes .brk s (fun t =>
      InterruptTaken ret true 0xFFFE#16 s t ∧ t.out.outcomes = s.out.outcomes ++ [.brkExecuted] ∧
        t.out.cycles = s.out.cycles + 7 ∧ LinesKept s t ∧ MadeItsAccesses .brk s t ∧
        (t.lines.nmiPending = true → InterruptTaken t.pc false 0xFFFA#16 t (boundary t)) ∧
        (t.lines.nmiPending = false → boundary t = t))

/-- R200 to R207, and the instruction part of R197: each branch tests one flag for one value, and moves PC and nothing else. -/
def Obligations.BranchesTestOneFlag : Prop :=
  (∀ (d : Byte) (s : State),
    Completes (.bpl d) s (Branches (s.flags.n = false) d s) ∧ Completes (.bmi d) s (Branches (s.flags.n = true) d s) ∧
      Completes (.bvc d) s (Branches (s.flags.v = false) d s) ∧ Completes (.bvs d) s (Branches (s.flags.v = true) d s) ∧
      Completes (.bcc d) s (Branches (s.flags.c = false) d s) ∧ Completes (.bcs d) s (Branches (s.flags.c = true) d s) ∧
      Completes (.bne d) s (Branches (s.flags.z = false) d s) ∧ Completes (.beq d) s (Branches (s.flags.z = true) d s)) ∧
  (∀ d : Byte,
    Encoded (.bpl d) [0x10#8, d] 2 false ∧ Encoded (.bmi d) [0x30#8, d] 2 false ∧ Encoded (.bvc d) [0x50#8, d] 2 false ∧
      Encoded (.bvs d) [0x70#8, d] 2 false ∧ Encoded (.bcc d) [0x90#8, d] 2 false ∧ Encoded (.bcs d) [0xB0#8, d] 2 false ∧
      Encoded (.bne d) [0xD0#8, d] 2 false ∧ Encoded (.beq d) [0xF0#8, d] 2 false)

/-- R198: which branches are taken after a compare. -/
def Obligations.BranchesAfterACompare : Prop :=
  ∀ (src : Source) (s : State) (f : Source → Instr) (reg : Byte),
    (f = .cmp ∧ reg = s.a) ∨ (f = .cpx ∧ reg = s.x) ∨ (f = .cpy ∧ reg = s.y) →
    Completes (f src) s (fun t =>
      TakenIff .beq (reg = (readSource src s).byte) t ∧ TakenIff .bne (reg ≠ (readSource src s).byte) t ∧
        TakenIff .bcs (reg.toNat ≥ (readSource src s).byte.toNat) t ∧
        TakenIff .bcc (reg.toNat < (readSource src s).byte.toNat) t ∧
        TakenIff .bmi ((reg.toNat + 256 - (readSource src s).byte.toNat) % 256 ≥ 128) t ∧
        TakenIff .bpl ((reg.toNat + 256 - (readSource src s).byte.toNat) % 256 < 128) t)

/-- LAW10 of spec/95 (from R193, R194): after JSR at p, an RTS in any state that has SP and the two stack bytes as the JSR left them
continues at p + 3 with SP as before the JSR, where the two stack bytes are plain RAM. -/
def Obligations.RtsUndoesJsr : Prop :=
  ∀ (w : Word) (s t : State), exec (.jsr w) s = .next t →
    plainRam s.params (stackAddr s.sp) = true → plainRam s.params (stackAddr (s.sp - 1#8)) = true →
    ∀ t' : State, t'.sp = t.sp → t'.params = t.params →
      t'.mem.read (stackAddr s.sp).toNat = t.mem.read (stackAddr s.sp).toNat →
      t'.mem.read (stackAddr (s.sp - 1#8)).toNat = t.mem.read (stackAddr (s.sp - 1#8)).toNat →
      ∃ u, exec .rts t' = .next u ∧ u.pc.toNat = (s.pc.toNat + 3) % 65536 ∧ u.sp = s.sp

/-- R195, last part (LAW11 of spec/95): an RTI in any state that has SP and the three stack bytes as an interrupt left them gives back
PC, SP and the six flags; after BRK it continues two bytes after the opcode. The three stack bytes are plain RAM. -/
def Obligations.RtiUndoesAnInterrupt : Prop :=
  ∀ (ret : Word) (brk : Bool) (vec : Word) (s t : State),
    (t = takeInterrupt ret brk vec s ∨ (exec .brk s = .next t ∧ ret = s.pc + 2#16)) →
    (∀ k : Byte, k.toNat < 3 → plainRam s.params (stackAddr (s.sp - k)) = true) →
    ∀ t' : State, t'.sp = t.sp → t'.params = t.params →
      (∀ k : Byte, k.toNat < 3 →
        t'.mem.read (stackAddr (s.sp - k)).toNat = t.mem.read (stackAddr (s.sp - k)).toNat) →
      ∃ u, exec .rti t' = .next u ∧ u.pc = ret ∧ u.sp = s.sp ∧ u.flags = s.flags ∧ SameMemory t' u ∧
        u.a = t'.a ∧ u.x = t'.x ∧ u.y = t'.y

/-! ## Flag instructions, NOP and unknown bytes -/

/-- R220, R221, R224 to R226, and the instruction parts of R222, R223: each flag instruction writes its one flag and nothing
else. -/
def Obligations.FlagInstructionsWriteOneFlag : Prop :=
  WritesFlags .clc 0x18#8 (fun f => { f with c := false }) ∧ WritesFlags .sec 0x38#8 (fun f => { f with c := true }) ∧
  WritesFlags .cli 0x58#8 (fun f => { f with i := false }) ∧ WritesFlags .sei 0x78#8 (fun f => { f with i := true }) ∧
  WritesFlags .clv 0xB8#8 (fun f => { f with v := false }) ∧
  WritesFlags .cld 0xD8#8 (fun f => { f with d := false }) ∧ WritesFlags .sed 0xF8#8 (fun f => { f with d := true })

/-- R227: NOP moves PC and changes nothing else. -/
def Obligations.NopMovesPcOnly : Prop := WritesFlags .nop 0xEA#8 (fun f => f)

/-- R88: the 105 bytes decode to nothing else; under `skip` such a byte moves PC by one and is signalled; under `halt` it is a fault
that names the byte and its address. -/
def Obligations.UnknownBytesSkipOrHalt : Prop :=
  (∀ op b1 b2 : Byte, decodeBytes op b1 b2 = .unknown op ↔ op ∈ unknownOpcodes) ∧
  unknownOpcodes.length = 105 ∧
  (∀ (op : Byte) (s : State), s.params.unknownPolicy = .skip → Completes (.unknown op) s (fun t =>
    t.pc.toNat = (s.pc.toNat + 1) % 65536 ∧ t.out.outcomes = s.out.outcomes ++ [.unknownOpcode op s.pc] ∧
      t.out.cycles = s.out.cycles + s.params.unknownCycles ∧ SameRegisters s t ∧ t.flags = s.flags ∧ t.mem = s.mem ∧
      t.lines = s.lines ∧ t.out.accesses = s.out.accesses ∧ SameSystem s t)) ∧
  (∀ (op : Byte) (s : State), s.params.unknownPolicy = .halt → exec (.unknown op) s = .fault (.unknownOpcode op s.pc)) ∧
  (∀ (op : Byte) (s : State), s.run = .running → s.params.unknownPolicy = .halt → op ∈ unknownOpcodes →
    s.portByte s.pc = op → step s = .fault (.unknownOpcode op s.pc)) ∧
  (∀ (op : Byte) (s : State), s.run = .running → s.params.unknownPolicy = .skip → op ∈ unknownOpcodes →
    s.portByte s.pc = op → ∃ u, exec (.unknown op) (memRead s.pc s.beginOutput).2 = .next u ∧ step s = .next (boundary u))

/-! ## Encoding -/

/-- R80 to R82, R86: decoding the bytes of any well-formed instruction, with anything after them, gives the instruction back and
leaves the rest. -/
def Obligations.DecodeOfEncodeIsTheInstruction : Prop :=
  ∀ (i : Instr) (rest : List Byte), i.wellFormed = true → decode (encode i ++ rest) = .ok i rest

/-- R83, R84: whatever bytes decode, decode to a well-formed instruction whose encoding they begin with; and decoding refuses only
bytes that end too soon. -/
def Obligations.EncodeOfDecodeIsTheBytes : Prop :=
  (∀ (bs : List Byte) (i : Instr) (rest : List Byte), decode bs = .ok i rest →
    i.wellFormed = true ∧ encode i ++ rest = bs ∧ i.size = (encode i).length) ∧
  (∀ bs : List Byte, 3 ≤ bs.length → ∃ i rest, decode bs = .ok i rest)

/-- Words written out from the spec's encodings decode to the instructions they stand for, one per family (R81, R86). -/
def Obligations.SampleWordsDecode : Prop :=
  ∀ rest : List Byte,
    decode (0xB9#8 :: 0xFF#8 :: 0x12#8 :: rest) = .ok (.lda (.mem (.absoluteY 0x12FF#16))) rest ∧
    decode (0x28#8 :: rest) = .ok .plp rest ∧
    decode (0xF1#8 :: 0x20#8 :: rest) = .ok (.sbc (.mem (.indirectIndexed 0x20#8))) rest ∧
    decode (0x7E#8 :: 0x00#8 :: 0x20#8 :: rest) = .ok (.ror (.mem (.absoluteX 0x2000#16))) rest ∧
    decode (0x6C#8 :: 0xFF#8 :: 0x10#8 :: rest) = .ok (.jmp (.indirect 0x10FF#16)) rest ∧
    decode (0xD0#8 :: 0xF9#8 :: rest) = .ok (.bne 0xF9#8) rest ∧
    decode (0xB8#8 :: rest) = .ok .clv rest ∧
    decode (0x89#8 :: rest) = .ok (.unknown 0x89#8) rest

/-! ## The step and the boundary evaluation -/

/-- R231 with R54 and R70: when the bytes in plain RAM at PC decode to an instruction, a step is its meaning at that state, with the
outputs holding the fetch's reads, followed by the boundary evaluation. -/
def Obligations.StepRunsTheDecodedInstruction : Prop :=
  (∀ (s : State) (i : Instr) (rest : List Byte), s.run = .running →
    plainRam s.params s.pc = true → plainRam s.params (s.pc + 1#16) = true → plainRam s.params (s.pc + 2#16) = true →
    decode [s.mem.read s.pc.toNat, s.mem.read (s.pc + 1#16).toNat, s.mem.read (s.pc + 2#16).toNat] = .ok i rest →
    step s = finishStep (exec i { s with out :=
      { cycles := 0, outcomes := [],
        accesses := [Access.read s.pc (s.mem.read s.pc.toNat),
          .read (s.pc + 1#16) (s.mem.read (s.pc + 1#16).toNat),
          .read (s.pc + 2#16) (s.mem.read (s.pc + 2#16).toNat)].take i.size } })) ∧
  (∀ t : State, finishStep (.next t) = .next (boundary t))

/-- R36: a step in Idle is stuck; a step from Running never leaves Running; of the environment's operations only reset leaves Idle. -/
def Obligations.OnlyResetLeavesIdle : Prop :=
  (∀ s : State, s.run = .idle → step s = .fault .idle) ∧
  (∀ s t : State, step s = .next t → s.run = .running ∧ t.run = .running) ∧
  (∀ (s : State) (op : LineOp), (applyEnv (.line op) s).run = s.run) ∧
  (∀ (s : State) (base : Word) (bytes : List Byte), (applyEnv (.store base bytes) s).run = s.run) ∧
  (∀ (s : State) (d : Draws), (applyEnv (.reset d) s).run = .running)

/-- R233: every step from Running completes, but for an unknown opcode under `halt`; and nothing is ever refused. -/
def Obligations.StepsCompleteButForIdleAndHalt : Prop :=
  (∀ s : State,
    (∃ t, step s = .next t) ∨ (step s = .fault .idle ∧ s.run = .idle) ∨
      (step s = .fault (.unknownOpcode (s.portByte s.pc) s.pc) ∧ s.run = .running ∧
        s.params.unknownPolicy = .halt ∧ s.portByte s.pc ∈ unknownOpcodes)) ∧
  (∀ (i : Instr) (s : State), (∀ op, i ≠ .unknown op) → ∃ t, exec i s = .next t)

/-- R239, R241: every step that did not fault ends with one boundary evaluation. There a latched NMI is serviced whatever I is; else an enabled active source when I is clear; else nothing.
The NMI latch is cleared before its service, and the IRQ service removes the enabled auto-acknowledge sources that were
active. -/
def Obligations.BoundaryServicesNmiThenIrq : Prop :=
  (∀ u : State, finishStep (.next u) = .next (boundary u)) ∧ (∀ f : Fault, finishStep (.fault f) = .fault f) ∧
  (∀ s : State, s.lines.nmiPending = true →
    InterruptTaken s.pc false 0xFFFA#16 s (boundary s) ∧
      LinesKept (s.setLines { s.lines with nmiPending := false }) (boundary s) ∧
      (boundary s).out.outcomes = s.out.outcomes ++ [.serviced .nmi] ∧
      (boundary s).out.cycles = s.out.cycles + 7) ∧
  (∀ s : State, s.lines.nmiPending = false → s.flags.i = false →
    (∃ q, q ∈ s.lines.irqActive ∧ q ∉ s.params.irqDisabled) →
    InterruptTaken s.pc false 0xFFFE#16 s (boundary s) ∧
      (∃ k l, l = afterHooks s.lines s.draws k ∧ (boundary s).draws = s.draws + k ∧
        (s.params.hooked = [] → k = 0) ∧
        (boundary s).lines.nmiLine = l.nmiLine ∧ (boundary s).lines.nmiPending = l.nmiPending ∧
        ∀ q, q ∈ (boundary s).lines.irqActive ↔ q ∈ l.irqActive ∧
          ¬(q ∈ s.lines.irqActive ∧ q ∉ s.params.irqDisabled ∧ q ∈ s.params.irqAutoAck)) ∧
      (boundary s).out.outcomes = s.out.outcomes ++ [.serviced .irq] ∧
      (boundary s).out.cycles = s.out.cycles + 7) ∧
  (∀ s : State, s.lines.nmiPending = false →
    (s.flags.i = true ∨ ∀ q, q ∈ s.lines.irqActive → q ∈ s.params.irqDisabled) → boundary s = s)

/-- R242: the service by the NMI or the IRQ vector pushes PC high, PC low and the status byte with Break 0 and I as it was, sets I, and
loads PC from the vector; it makes three writes and then two reads. A boundary that takes one adds 7 cycles. -/
def Obligations.ServicePushesPcAndStatus : Prop :=
  (∀ (vec : Word) (s : State), vec = 0xFFFA#16 ∨ vec = 0xFFFE#16 →
    InterruptTaken s.pc false vec s (service vec s) ∧ LinesKept s (service vec s) ∧
      (statusByte false s.flags).getLsbD 4 = false ∧ (statusByte false s.flags).getLsbD 5 = true ∧
      (statusByte false s.flags).getLsbD 2 = s.flags.i ∧
      accessesOf (service vec s).out = accessesOf s.out ++ serviceAccesses vec s) ∧
  (∀ s : State, (s.lines.nmiPending || (s.irqRequest && !s.flags.i)) = true → (boundary s).out.cycles = s.out.cycles + 7)

/-- R240, with no NMI latched and an enabled source active after an instruction: whatever instruction cleared I, its own step ends
with the IRQ serviced; whatever instruction set I, its own step ends without. CLI pushes the address after itself and a status byte
with I = 0; SEI keeps the source waiting. -/
def Obligations.InterruptDisableIsSeenAtOnce : Prop :=
  (∀ (i : Instr) (s u : State), exec i s = .next u → u.lines.nmiPending = false → u.irqRequest = true →
    ∃ t, finishStep (exec i s) = .next t ∧
      (u.flags.i = false → InterruptTaken u.pc false 0xFFFE#16 u t ∧
        t.out.outcomes = u.out.outcomes ++ [.serviced .irq] ∧ t.out.cycles = u.out.cycles + 7) ∧
      (u.flags.i = true → t = u)) ∧
  (∀ s : State, s.lines.nmiPending = false → s.irqRequest = true →
    (∃ t, finishStep (exec .cli s) = .next t ∧
      InterruptTaken (s.pc + 1#16) false 0xFFFE#16 (s.setFlags { s.flags with i := false }) t ∧
      t.out.outcomes = s.out.outcomes ++ [.serviced .irq] ∧ t.out.cycles = s.out.cycles + 9) ∧
    (∃ t, finishStep (exec .sei s) = .next t ∧ t.pc = s.pc + 1#16 ∧ t.flags = { s.flags with i := true } ∧
      t.sp = s.sp ∧ t.mem = s.mem ∧ t.lines = s.lines ∧ t.out.outcomes = s.out.outcomes))

/-- R54, R115: a step reads its instruction bytes from PC upward, then makes exactly the accesses of R115's table, then those of a
service if one is taken. -/
def Obligations.AccessesOfAStepInOrder : Prop :=
  ∀ s t : State, step s = .next t →
    ∃ u, exec (fetch s.beginOutput).instr (fetch s.beginOutput).state = .next u ∧ t = boundary u ∧
      accessesOf (fetch s.beginOutput).state.out = fetchAccesses (fetch s.beginOutput).instr.size s.pc ∧
      accessesOf u.out =
        fetchAccesses (fetch s.beginOutput).instr.size s.pc ++
          instrAccesses (fetch s.beginOutput).instr (fetch s.beginOutput).state ∧
      accessesOf t.out = accessesOf u.out ++
        (if u.lines.nmiPending then serviceAccesses 0xFFFA#16 u
         else if u.irqRequest && !u.flags.i then serviceAccesses 0xFFFE#16 u else [])

/-- R283: a step puts out at most 14 cycles, when a skipped unknown byte costs at most 7. -/
def Obligations.StepCyclesAreAtMostFourteen : Prop :=
  ∀ s t : State, s.params.unknownCycles ≤ 7 → step s = .next t → t.out.cycles ≤ 14

/-! ## Whole-machine rules -/

/-- R25 (LAW1 of spec/95): every legal instruction that does not set PC itself ends with PC advanced by its size, modulo 65536. -/
def Obligations.PcAdvancesBySize : Prop :=
  ∀ (i : Instr) (s t : State), (∀ op, i ≠ .unknown op) → ¬SetsPc i s → exec i s = .next t →
    t.pc.toNat = (s.pc.toNat + i.size) % 65536

/-- R28 to R31, R33, R34 (LAW14, LAW15 of spec/95): no instruction changes a flag but those that the flag's rule lists. -/
def Obligations.FlagsChangeOnlyWhereListed : Prop :=
  ∀ (i : Instr) (s t : State), exec i s = .next t →
    (¬MayChangeC i → t.flags.c = s.flags.c) ∧ (¬MayChangeI i → t.flags.i = s.flags.i) ∧
    (¬MayChangeD i → t.flags.d = s.flags.d) ∧ (¬MayChangeV i → t.flags.v = s.flags.v) ∧
    (¬MayChangeZN i → t.flags.z = s.flags.z ∧ t.flags.n = s.flags.n)

/-- R37, R38, R39, R59: no instruction writes the interrupt bookkeeping, `run_state` or a parameter, and memory changes only at an address
that R115's table writes. -/
def Obligations.InstructionsWriteMemoryOnlyWhereListed : Prop :=
  ∀ (i : Instr) (s t : State), exec i s = .next t →
    SameSystem s t ∧ LinesKept s t ∧
      ∀ a : Word, AccessAt.w a ∉ instrAccesses i s → t.mem.read a.toNat = s.mem.read a.toNat

/-- The model's own invariant (log entries 1 and 7; guide): a step keeps the canonical forms of memory and of the set of active sources. -/
def Obligations.StepKeepsTheCanonicalForms : Prop :=
  ∀ s t : State, Canonical s → step s = .next t → Canonical t

/-- The environment's operations keep the canonical forms too (log entries 1 and 7). -/
def Obligations.EnvironmentKeepsTheCanonicalForms : Prop :=
  ∀ (s : State) (e : EnvOp), Canonical s → Canonical (applyEnv e s)

/-- The state after reset has the canonical forms (log entries 1 and 7). -/
def Obligations.ResetHasTheCanonicalForms : Prop := Canonical State.reset

/-- Equal memories are equal data: two states in canonical form whose plain RAM reads alike hold the same list (log entry 1). -/
def Obligations.CanonicalMemoriesAreDetermined : Prop :=
  ∀ s t : State, Canonical s → Canonical t → SameMemory s t → t.mem = s.mem

/-! ## The environment -/

/-- R271 (and R40, column "after reset"): reset loads PC from the vector at 0xFFFC, sets I, draws every other register and flag, keeps
memory, the NMI level and the active sources, treats the NMI latch by RESET_NMI, makes two reads and costs 7 cycles. -/
def Obligations.ResetLoadsTheVectorAndSetsI : Prop :=
  ∀ (d : Draws) (s : State),
    ((envReset d s).run = .running ∧ (envReset d s).mem = s.mem ∧ (envReset d s).params = s.params) ∧
    (envReset d s).pc = (readWord 0xFFFC#16 s).1 ∧
    (plainRam s.params 0xFFFC#16 = true → plainRam s.params 0xFFFD#16 = true →
      (envReset d s).pc.toNat = wordIn s.mem 0xFFFC#16 0xFFFD#16) ∧
    (envReset d s).flags = { n := d.n, v := d.v, d := d.d, i := true, z := d.z, c := d.c } ∧
    ((envReset d s).a = d.a ∧ (envReset d s).x = d.x ∧ (envReset d s).y = d.y ∧ (envReset d s).sp = d.sp) ∧
    (∃ k l, l = afterHooks s.lines s.draws k ∧ (envReset d s).draws = s.draws + k ∧ (s.params.hooked = [] → k = 0) ∧
      (envReset d s).lines.nmiLine = l.nmiLine ∧ (envReset d s).lines.irqActive = l.irqActive ∧
      (s.params.resetNmi = .clear → (envReset d s).lines.nmiPending = false) ∧
      (s.params.resetNmi = .keep → (envReset d s).lines.nmiPending = l.nmiPending) ∧
      (s.params.resetNmi = .any → (envReset d s).lines.nmiPending = d.nmi)) ∧
    (envReset d s).out.cycles = 7 ∧ (envReset d s).out.outcomes = [] ∧
    accessesOf (envReset d s).out = [.r 0xFFFC#16, .r 0xFFFD#16]

/-- R237: a raise latches an NMI on a 0-to-1 change of the level only, a clear leaves the latch, and one edge gives one service: the
boundary services a latched NMI, clears the latch and (but for hooks on the stack page or the vector) no other bookkeeping, and services
no NMI that is not latched. -/
def Obligations.NmiIsLatchedOncePerEdge : Prop :=
  (∀ s : State, s.lines.nmiLine = false →
    applyEnv (.line .nmiRaise) s = s.setLines { s.lines with nmiLine := true, nmiPending := true }) ∧
  (∀ s : State, s.lines.nmiLine = true → applyEnv (.line .nmiRaise) s = s) ∧
  (∀ s : State, applyEnv (.line .nmiClear) s = s.setLines { s.lines with nmiLine := false }) ∧
  (∀ s : State, s.lines.nmiPending = true →
    (boundary s).out.outcomes = s.out.outcomes ++ [.serviced .nmi] ∧
      LinesKept (s.setLines { s.lines with nmiPending := false }) (boundary s) ∧
      (s.params.hooked = [] → (boundary s).lines = { s.lines with nmiPending := false })) ∧
  (∀ s : State, s.lines.nmiPending = false →
    (boundary s).out.outcomes = s.out.outcomes ∨ (boundary s).out.outcomes = s.out.outcomes ++ [.serviced .irq])

/-- R236, R235: activate and deactivate are the set operations on the active sources, are idempotent, and change nothing else; the request
is that some active source is enabled. -/
def Obligations.IrqSourcesAreASet : Prop :=
  (∀ (s : State) (q r : IrqSource),
    (r ∈ (applyEnv (.line (.activate q)) s).lines.irqActive ↔ r = q ∨ r ∈ s.lines.irqActive) ∧
    (r ∈ (applyEnv (.line (.deactivate q)) s).lines.irqActive ↔ r ∈ s.lines.irqActive ∧ r ≠ q)) ∧
  (∀ (s : State) (op : LineOp), (∃ q, op = .activate q ∨ op = .deactivate q) →
    applyEnv (.line op) (applyEnv (.line op) s) = applyEnv (.line op) s ∧
      (applyEnv (.line op) s).lines.nmiLine = s.lines.nmiLine ∧
      (applyEnv (.line op) s).lines.nmiPending = s.lines.nmiPending) ∧
  (∀ (s : State) (op : LineOp), applyEnv (.line op) s = s.setLines (applyEnv (.line op) s).lines) ∧
  (∀ s : State, s.irqRequest = true ↔ ∃ q, q ∈ s.lines.irqActive ∧ q ∉ s.params.irqDisabled)
end

