-- ==== Sys2Proof/Laws/Decode.lean ====
section
/-! SUPPORT. The byte order of words, and what the opcode table, the decoder and the encoder can do: the two lookups invert each other, and a decoded instruction
carries its row's mnemonic and mode and the operand bytes it was read from. -/

namespace Sys2Proof

/-! ## Byte order -/

theorem toNat_word (h l : Byte) : (word h l).toNat = 256 * h.toNat + l.toNat := by
  have hl : l.toNat < 2 ^ 8 := l.isLt
  change (h ++ l).toNat = _
  rw [BitVec.toNat_append, Nat.shiftLeft_eq, Nat.mul_comm, ← Nat.two_pow_add_eq_or_of_lt hl]

theorem toNat_hi (w : Word) : (hi w).toNat = w.toNat / 256 := by
  have := w.isLt
  simp [hi, Nat.shiftRight_eq_div_pow]
  omega

theorem toNat_lo (w : Word) : (lo w).toNat = w.toNat % 256 := by
  simp [lo]

@[simp] theorem hi_word (h l : Byte) : hi (word h l) = h := by
  apply BitVec.eq_of_toNat_eq
  rw [toNat_hi, toNat_word]
  have := l.isLt
  omega

@[simp] theorem lo_word (h l : Byte) : lo (word h l) = l := by
  apply BitVec.eq_of_toNat_eq
  rw [toNat_lo, toNat_word]
  have := l.isLt
  omega

@[simp] theorem word_hi_lo (w : Word) : word (hi w) (lo w) = w := by
  apply BitVec.eq_of_toNat_eq
  rw [toNat_word, toNat_hi, toNat_lo]
  omega

theorem word_inj {h l h' l' : Byte} : word h l = word h' l' ↔ h = h' ∧ l = l' := by
  constructor
  · intro e
    exact ⟨by rw [← hi_word h l, e, hi_word], by rw [← lo_word h l, e, lo_word]⟩
  · rintro ⟨rfl, rfl⟩; rfl

/-! ## The table -/

theorem opcodeTable_length : opcodeTable.length = 151 := by decide +kernel

theorem rowOfByte_opcode {op : Byte} {r : OpRow} (h : rowOfByte op = some r) : r.opcode = op := by
  simpa using List.find?_some h

theorem rowOfByte_mem {op : Byte} {r : OpRow} (h : rowOfByte op = some r) : r ∈ opcodeTable :=
  List.mem_of_find?_eq_some h

theorem rowOfForm_mem {m : Mnemonic} {md : Mode} {r : OpRow} (h : rowOfForm m md = some r) : r ∈ opcodeTable :=
  List.mem_of_find?_eq_some h

theorem rowOfForm_form {m : Mnemonic} {md : Mode} {r : OpRow} (h : rowOfForm m md = some r) :
    r.mnemonic = m ∧ r.mode = md := by
  simpa using List.find?_some h

/-- Each row is found again by its byte, by its mnemonic and mode, and assembles to an instruction (R87). -/
theorem opcodeTable_rows : ∀ r ∈ opcodeTable,
    rowOfByte r.opcode = some r ∧ rowOfForm r.mnemonic r.mode = some r ∧
      r.cycles ≤ 7 ∧ (r.crossCycle = true → r.cycles ≤ 5) ∧ r.opcode ∉ unknownOpcodes := by
  decide +kernel

/-- The 105 bytes that R88 lists are exactly the bytes without a row (R84). -/
theorem rowOfByte_none : ∀ op : Byte, rowOfByte op = none ↔ op ∈ unknownOpcodes := by decide +kernel

/-! ## Operand forms -/

theorem MemMode.ofMode_some {md : Mode} {b1 b2 : Byte} {m : MemMode} (h : MemMode.ofMode md b1 b2 = some m) :
    m.mode = md ∧ (md.size = 2 ∨ md.size = 3) ∧ md ≠ .immediate ∧ md ≠ .accumulator := by
  cases md <;> simp [MemMode.ofMode] at h <;> subst h <;> simp [MemMode.mode, Mode.size]

theorem MemMode.mode_size (m : MemMode) : m.bytes.length + 1 = m.mode.size := by cases m <;> rfl

theorem Source.mode_size (src : Source) : src.bytes.length + 1 = src.mode.size := by
  cases src with
  | imm v => rfl
  | mem m => exact m.mode_size

theorem Target.mode_size (t : Target) : t.bytes.length + 1 = t.mode.size := by
  cases t with
  | acc => rfl
  | mem m => exact m.mode_size

theorem JumpTarget.mode_size (j : JumpTarget) : j.bytes.length + 1 = j.mode.size := by cases j <;> rfl

/-- The operand bytes that an instruction is written with are as many as its size says (R80, R81). -/
theorem Instr.operandBytes_length (i : Instr) : i.operandBytes.length + 1 = i.size := by
  cases i with
  | lda src => exact src.mode_size
  | ldx src => exact src.mode_size
  | ldy src => exact src.mode_size
  | sta m => exact m.mode_size
  | stx m => exact m.mode_size
  | sty m => exact m.mode_size
  | and src => exact src.mode_size
  | ora src => exact src.mode_size
  | eor src => exact src.mode_size
  | bit m => exact m.mode_size
  | adc src => exact src.mode_size
  | sbc src => exact src.mode_size
  | cmp src => exact src.mode_size
  | cpx src => exact src.mode_size
  | cpy src => exact src.mode_size
  | inc m => exact m.mode_size
  | dec m => exact m.mode_size
  | asl t => exact t.mode_size
  | lsr t => exact t.mode_size
  | rol t => exact t.mode_size
  | ror t => exact t.mode_size
  | jmp j => exact j.mode_size
  | _ => rfl

theorem Instr.size_pos (i : Instr) : 1 ≤ i.size := by have := i.operandBytes_length; omega

theorem Instr.size_le_three (i : Instr) : i.size ≤ 3 := by
  have : ∀ md : Mode, md.size ≤ 3 := by intro md; cases md <;> simp [Mode.size]
  exact this _

/-! ## The decoder -/

theorem MemMode.ofMode_bytes {md : Mode} {b1 b2 : Byte} {m : MemMode} (h : MemMode.ofMode md b1 b2 = some m) :
    m.mode = md ∧ m.bytes = [b1, b2].take (md.size - 1) := by
  cases md <;> simp [MemMode.ofMode] at h <;> subst h <;> simp [MemMode.mode, MemMode.bytes, wordBytes, Mode.size]

theorem Source.ofMode_bytes {md : Mode} {b1 b2 : Byte} {src : Source} (h : Source.ofMode md b1 b2 = some src) :
    src.mode = md ∧ src.bytes = [b1, b2].take (md.size - 1) := by
  unfold Source.ofMode at h
  split at h
  · rename_i e; subst e; cases h; exact ⟨rfl, rfl⟩
  · obtain ⟨m, hm, rfl⟩ := Option.map_eq_some_iff.1 h
    exact MemMode.ofMode_bytes hm

theorem Target.ofMode_bytes {md : Mode} {b1 b2 : Byte} {t : Target} (h : Target.ofMode md b1 b2 = some t) :
    t.mode = md ∧ t.bytes = [b1, b2].take (md.size - 1) := by
  unfold Target.ofMode at h
  split at h
  · rename_i e; subst e; cases h; exact ⟨rfl, rfl⟩
  · obtain ⟨m, hm, rfl⟩ := Option.map_eq_some_iff.1 h
    exact MemMode.ofMode_bytes hm

theorem JumpTarget.ofMode_bytes {md : Mode} {b1 b2 : Byte} {j : JumpTarget} (h : JumpTarget.ofMode md b1 b2 = some j) :
    j.mode = md ∧ j.bytes = [b1, b2].take (md.size - 1) := by
  unfold JumpTarget.ofMode at h
  split at h
  · rename_i e; subst e; cases h; simp [JumpTarget.mode, JumpTarget.bytes, wordBytes, Mode.size]
  · split at h
    · rename_i e; subst e; cases h; simp [JumpTarget.mode, JumpTarget.bytes, wordBytes, Mode.size]
    · cases h

theorem MemMode.ofMode_self (m : MemMode) (rest : List Byte) :
    MemMode.ofMode m.mode ((m.bytes ++ rest).getD 0 0) ((m.bytes ++ rest).getD 1 0) = some m := by
  cases m <;> simp [MemMode.mode, MemMode.ofMode, MemMode.bytes, wordBytes]

theorem MemMode.mode_ne (m : MemMode) : m.mode ≠ .immediate ∧ m.mode ≠ .accumulator := by
  cases m <;> simp [MemMode.mode]

theorem Source.ofMode_self (src : Source) (rest : List Byte) :
    Source.ofMode src.mode ((src.bytes ++ rest).getD 0 0) ((src.bytes ++ rest).getD 1 0) = some src := by
  cases src with
  | imm v => rfl
  | mem m => simp only [Source.ofMode, Source.mode, m.mode_ne.1, if_false, Source.bytes, m.ofMode_self]; rfl

theorem Target.ofMode_self (t : Target) (rest : List Byte) :
    Target.ofMode t.mode ((t.bytes ++ rest).getD 0 0) ((t.bytes ++ rest).getD 1 0) = some t := by
  cases t with
  | acc => rfl
  | mem m => simp only [Target.ofMode, Target.mode, m.mode_ne.2, if_false, Target.bytes, m.ofMode_self]; rfl

theorem JumpTarget.ofMode_self (j : JumpTarget) (rest : List Byte) :
    JumpTarget.ofMode j.mode ((j.bytes ++ rest).getD 0 0) ((j.bytes ++ rest).getD 1 0) = some j := by
  cases j <;> simp [JumpTarget.mode, JumpTarget.ofMode, JumpTarget.bytes, wordBytes]

/-- An assembled instruction carries the mnemonic, the mode and the operand bytes it was assembled from. -/
theorem assemble_some {m : Mnemonic} {md : Mode} {b1 b2 : Byte} {i : Instr} (h : assemble m md b1 b2 = some i) :
    i.mnemonic = some m ∧ i.mode = md ∧ i.operandBytes = [b1, b2].take (md.size - 1) := by
  cases m <;> simp only [assemble, Option.map_eq_some_iff] at h <;>
    first
    | (obtain ⟨o, ho, rfl⟩ := h
       first
       | exact ⟨rfl, Source.ofMode_bytes ho⟩
       | exact ⟨rfl, MemMode.ofMode_bytes ho⟩
       | exact ⟨rfl, Target.ofMode_bytes ho⟩
       | exact ⟨rfl, JumpTarget.ofMode_bytes ho⟩)
    | (split at h
       · rename_i e; subst e; cases h
         simp [Instr.mnemonic, Instr.mode, Instr.operandBytes, Mode.size, wordBytes]
       · cases h)

/-- Every legal instruction is assembled from its own mnemonic, mode and operand bytes. -/
theorem assemble_self {i : Instr} {m : Mnemonic} (h : i.mnemonic = some m) (rest : List Byte) :
    assemble m i.mode ((i.operandBytes ++ rest).getD 0 0) ((i.operandBytes ++ rest).getD 1 0) = some i := by
  cases i <;> simp only [Instr.mnemonic, Option.some.injEq, reduceCtorEq] at h <;> subst h <;>
    simp only [assemble, Instr.mode, Instr.operandBytes] <;>
    first
    | rfl
    | (rw [Source.ofMode_self]; rfl)
    | (rw [MemMode.ofMode_self]; rfl)
    | (rw [Target.ofMode_self]; rfl)
    | (rw [JumpTarget.ofMode_self]; rfl)
    | simp [wordBytes]

/-- Well-formedness looks at the mnemonic and the mode only. -/
theorem wellFormed_congr {i j : Instr} (hm : i.mnemonic = j.mnemonic) (hd : i.mode = j.mode) (hi : i.mnemonic ≠ none) :
    i.wellFormed = j.wellFormed := by
  cases i <;> simp only [Instr.mnemonic, ne_eq, reduceCtorEq, not_false_eq_true, not_true_eq_false] at hi hm <;>
    cases j <;> simp only [Option.some.injEq, reduceCtorEq] at hm <;>
    simp only [Instr.mode] at hd <;> simp only [Instr.wellFormed, hd]

theorem assemble_isSome (m : Mnemonic) (md : Mode) (b1 b2 : Byte) :
    (assemble m md b1 b2).isSome = (assemble m md 0#8 0#8).isSome := by
  cases m <;> cases md <;> rfl

theorem opcodeTable_assembles : ∀ r ∈ opcodeTable, (assemble r.mnemonic r.mode 0#8 0#8).isSome = true := by decide +kernel

/-- Whether an instruction's form is one that R86 gives an encoding is the same as having a row. -/
theorem assemble_wellFormed : ∀ r ∈ opcodeTable, ∀ b1 b2 i, assemble r.mnemonic r.mode b1 b2 = some i → i.wellFormed = true := by
  intro r hr b1 b2 i h
  have key : ∀ r ∈ opcodeTable, ∀ j, assemble r.mnemonic r.mode 0#8 0#8 = some j → j.wellFormed = true := by
    have : ∀ r ∈ opcodeTable, (assemble r.mnemonic r.mode 0#8 0#8).all Instr.wellFormed = true := by decide +kernel
    intro r hr j hj
    simpa [hj] using this r hr
  have hsome : ∃ j, assemble r.mnemonic r.mode 0#8 0#8 = some j := Option.isSome_iff_exists.1 (opcodeTable_assembles r hr)
  obtain ⟨j, hj⟩ := hsome
  have hw := key r hr j hj
  rw [← hw]
  have hi := assemble_some h
  have hj := assemble_some hj
  exact wellFormed_congr (hi.1.trans hj.1.symm) (hi.2.1.trans hj.2.1.symm) (by rw [hi.1]; simp)

/-- The decoder on a byte with a row, and on a byte without one. -/
theorem decodeBytes_row {op : Byte} {r : OpRow} (h : rowOfByte op = some r) (b1 b2 : Byte) :
    assemble r.mnemonic r.mode b1 b2 = some (decodeBytes op b1 b2) := by
  have hs : (assemble r.mnemonic r.mode b1 b2).isSome = true := by
    rw [assemble_isSome]; exact opcodeTable_assembles r (rowOfByte_mem h)
  obtain ⟨i, hi⟩ := Option.isSome_iff_exists.1 hs
  simp [decodeBytes, h, hi]

theorem decodeBytes_none {op : Byte} (h : rowOfByte op = none) (b1 b2 : Byte) : decodeBytes op b1 b2 = .unknown op := by
  simp [decodeBytes, h]

/-- An instruction is as long as its opcode byte says (R80). -/
theorem decodeBytes_size (op b1 b2 : Byte) : (decodeBytes op b1 b2).size = sizeOfByte op := by
  cases h : rowOfByte op with
  | none => simp [decodeBytes_none h, sizeOfByte, h, Instr.size, Instr.mode, Mode.size]
  | some r => simp [Instr.size, sizeOfByte, h, (assemble_some (decodeBytes_row h b1 b2)).2.1]

/-- A well-formed instruction of a mnemonic has a row (R86). -/
theorem wellFormed_row : ∀ (i : Instr), i.wellFormed = true → i.mnemonic ≠ none → ∃ r, i.row = some r := by
  have key : ∀ (m : Mnemonic) (md : Mode), (∃ i : Instr, i.mnemonic = some m ∧ i.mode = md ∧ i.wellFormed = true) → (rowOfForm m md).isSome = true := by
    intro m md ⟨i, h1, h2, h3⟩
    cases i <;> simp [Instr.mnemonic] at h1 <;> subst h1 <;> subst h2
    all_goals try rfl
    all_goals revert h3
    all_goals simp only [Instr.wellFormed, Instr.mode]
    all_goals first
      | (rename_i src; generalize src.mode = md; cases md <;> decide)
      | (rename_i j; cases j <;> (intro _; rfl))
  intro i h hm
  obtain ⟨m, hm'⟩ := Option.ne_none_iff_exists'.1 hm
  have := key m i.mode ⟨i, hm', rfl, h⟩
  simp only [Instr.row, hm']
  exact Option.isSome_iff_exists.1 this

theorem encode_row {i : Instr} {r : OpRow} (h : i.row = some r) : encode i = r.opcode :: i.operandBytes := by
  cases i <;> simp only [encode, h]
  simp [Instr.row, Instr.mnemonic] at h

/-- The unknown bytes, and only they, decode to `unknown` (R88). -/
theorem decodeBytes_unknown_iff (op b1 b2 : Byte) : decodeBytes op b1 b2 = .unknown op ↔ op ∈ unknownOpcodes := by
  rw [← rowOfByte_none]
  constructor
  · intro h
    cases hr : rowOfByte op with
    | none => rfl
    | some r =>
      have := (assemble_some (decodeBytes_row hr b1 b2)).1
      rw [h] at this; cases this
  · intro h; exact decodeBytes_none h _ _

end Sys2Proof
end

