-- ==== Sys2Proof/Laws/Memory.lean ====
section
/-! SUPPORT. The laws of the byte memory (read after write, the canonical form) and of the sets of sources. -/

namespace Sys2Proof.Machine

/-! ## Memory -/

@[simp] theorem Memory.read_nil (a : Nat) : Memory.read [] a = Memory.unlisted := rfl

theorem Memory.read_cons (k : Nat) (v : Byte) (m : Memory) (a : Nat) :
    Memory.read ((k, v) :: m) a = if k = a then v else Memory.read m a := rfl

theorem Memory.read_filter (m : Memory) (a b : Nat) :
    Memory.read (m.filter (fun c => c.1 != a)) b = if b = a then Memory.unlisted else Memory.read m b := by
  induction m with
  | nil => simp
  | cons c m ih =>
    obtain ⟨k, v⟩ := c
    by_cases h : k = a
    · subst h
      by_cases hb : k = b
      · subst hb; simpa using ih
      · simp [ih, Memory.read_cons, hb]
    · have hk : (k != a) = true := by simpa using h
      by_cases hb : k = b
      · subst hb; simp [Memory.read_cons, h]
      · simp [Memory.read_cons, h, hb, ih]

theorem Memory.read_insertCell (m : Memory) (a : Nat) (v : Byte) (b : Nat)
    (hm : ∀ c ∈ m, c.1 ≠ a) :
    Memory.read (m.insertCell a v) b = if b = a then v else Memory.read m b := by
  induction m with
  | nil => simp [Memory.insertCell, Memory.read_cons, eq_comm]
  | cons c m ih =>
    obtain ⟨k, w⟩ := c
    have hka : k ≠ a := hm (k, w) (by simp)
    have ih := ih (fun c hc => hm c (by simp [hc]))
    unfold Memory.insertCell
    split
    · simp [Memory.read_cons, eq_comm]
    · by_cases hb : k = b
      · subst hb; simp [Memory.read_cons, hka]
      · simp [Memory.read_cons, hb, ih]

/-- Read after write: the written address reads the byte, every other address reads as before (no canonical form
is needed). -/
theorem Memory.read_write (m : Memory) (a : Nat) (v : Byte) (b : Nat) :
    Memory.read (m.write a v) b = if b = a then v else Memory.read m b := by
  unfold Memory.write
  by_cases h : v = Memory.unlisted
  · simp only [h, if_true, Memory.read_filter]
  · simp only [h, if_false]
    rw [Memory.read_insertCell _ _ _ _ (by simp), Memory.read_filter]
    split <;> simp_all

@[simp] theorem Memory.read_write_same (m : Memory) (a : Nat) (v : Byte) : Memory.read (m.write a v) a = v := by
  simp [Memory.read_write]

theorem Memory.read_write_ne (m : Memory) {a b : Nat} (v : Byte) (h : b ≠ a) :
    Memory.read (m.write a v) b = Memory.read m b := by
  simp [Memory.read_write, h]

theorem Memory.risingFrom_mono {m : Memory} {b b' : Nat} (hb : b' ≤ b) (h : Memory.risingFrom b m = true) :
    Memory.risingFrom b' m = true := by
  cases m with
  | nil => rfl
  | cons c m =>
    simp only [Memory.risingFrom, Bool.and_eq_true, decide_eq_true_eq] at h ⊢
    exact ⟨⟨⟨by omega, h.1.1.2⟩, h.1.2⟩, h.2⟩

theorem Memory.risingFrom_filter {m : Memory} {b : Nat} (q : Host.Cell → Bool) (h : Memory.risingFrom b m = true) :
    Memory.risingFrom b (m.filter q) = true := by
  induction m generalizing b with
  | nil => rfl
  | cons c m ih =>
    obtain ⟨k, v⟩ := c
    simp only [Memory.risingFrom, Bool.and_eq_true, decide_eq_true_eq] at h
    obtain ⟨⟨⟨h1, h2⟩, h3⟩, h4⟩ := h
    by_cases hq : q (k, v)
    · simp only [List.filter_cons, hq, if_true, Memory.risingFrom, Bool.and_eq_true, decide_eq_true_eq]
      exact ⟨⟨⟨h1, h2⟩, h3⟩, ih h4⟩
    · rw [List.filter_cons]
      simp only [hq]
      exact Memory.risingFrom_mono (by omega) (ih h4)

theorem Memory.risingFrom_insertCell {m : Memory} {b a : Nat} {v : Byte} (hba : b ≤ a) (ha : a < 65536)
    (hv : v ≠ Memory.unlisted) (hm : ∀ c ∈ m, c.1 ≠ a) (h : Memory.risingFrom b m = true) :
    Memory.risingFrom b (m.insertCell a v) = true := by
  induction m generalizing b with
  | nil => simp [Memory.insertCell, Memory.risingFrom, hba, ha, hv]
  | cons c m ih =>
    obtain ⟨k, w⟩ := c
    have hka : k ≠ a := hm (k, w) (by simp)
    simp only [Memory.risingFrom, Bool.and_eq_true, decide_eq_true_eq] at h
    obtain ⟨⟨⟨h1, h2⟩, h3⟩, h4⟩ := h
    unfold Memory.insertCell
    split
    · rename_i hlt
      simp only [Memory.risingFrom, Bool.and_eq_true, decide_eq_true_eq]
      exact ⟨⟨⟨hba, ha⟩, hv⟩, ⟨⟨by omega, h2⟩, h3⟩, h4⟩
    · rename_i hge
      simp only [Memory.risingFrom, Bool.and_eq_true, decide_eq_true_eq]
      exact ⟨⟨⟨h1, h2⟩, h3⟩, ih (by omega) (fun c hc => hm c (by simp [hc])) h4⟩

/-- A write at an address of the space keeps the canonical form. -/
theorem Memory.wf_write {m : Memory} (h : m.wf = true) {a : Nat} (ha : a < 65536) (v : Byte) :
    (m.write a v).wf = true := by
  unfold Memory.wf Memory.write at *
  by_cases hv : v = Memory.unlisted
  · simp only [hv, if_true]
    exact Memory.risingFrom_filter _ h
  · simp only [hv, if_false]
    exact Memory.risingFrom_insertCell (by omega) ha hv (by simp) (Memory.risingFrom_filter _ h)

theorem Memory.read_below {m : Memory} {b a : Nat} (h : Memory.risingFrom b m = true) (hab : a < b) :
    Memory.read m a = Memory.unlisted := by
  induction m generalizing b with
  | nil => rfl
  | cons c m ih =>
    obtain ⟨k, v⟩ := c
    simp only [Memory.risingFrom, Bool.and_eq_true, decide_eq_true_eq] at h
    have hk : k ≠ a := by omega
    simp only [Memory.read_cons, hk, if_false]
    exact ih h.2 (by omega)

theorem Memory.ext_from {m m' : Memory} {b : Nat} (h : Memory.risingFrom b m = true) (h' : Memory.risingFrom b m' = true)
    (e : ∀ a, Memory.read m a = Memory.read m' a) : m = m' := by
  induction m generalizing m' b with
  | nil =>
    cases m' with
    | nil => rfl
    | cons c m' =>
      obtain ⟨k, v⟩ := c
      have hk := e k
      simp only [Memory.risingFrom, Bool.and_eq_true, decide_eq_true_eq] at h'
      simp [Memory.read_cons] at hk
      exact absurd hk.symm h'.1.2
  | cons c m ih =>
    obtain ⟨k, v⟩ := c
    simp only [Memory.risingFrom, Bool.and_eq_true, decide_eq_true_eq] at h
    cases m' with
    | nil =>
      have hk := e k
      simp [Memory.read_cons] at hk
      exact absurd hk h.1.2
    | cons c' m' =>
      obtain ⟨k', v'⟩ := c'
      simp only [Memory.risingFrom, Bool.and_eq_true, decide_eq_true_eq] at h'
      have hkk : k = k' := by
        rcases Nat.lt_trichotomy k k' with hlt | heq | hgt
        · have hk := e k
          have hne : k' ≠ k := by omega
          simp only [Memory.read_cons, if_true, hne, if_false] at hk
          exact absurd (hk.trans (Memory.read_below h'.2 (by omega))) h.1.2
        · exact heq
        · have hk := e k'
          have hne : k ≠ k' := by omega
          simp only [Memory.read_cons, if_true, hne, if_false] at hk
          exact absurd (hk.symm.trans (Memory.read_below h.2 (by omega))) h'.1.2
      subst hkk
      have hv := e k
      simp only [Memory.read_cons, if_true] at hv
      subst hv
      have : m = m' := by
        refine ih h.2 h'.2 (fun a => ?_)
        by_cases ha : k = a
        · subst ha
          rw [Memory.read_below h.2 (by omega), Memory.read_below h'.2 (by omega)]
        · have := e a
          simpa only [Memory.read_cons, ha, if_false] using this
      rw [this]

/-- Equal memories are equal data: two canonical memories that read alike are the same list. -/
theorem Memory.ext {m m' : Memory} (h : m.wf = true) (h' : m'.wf = true)
    (e : ∀ a, Memory.read m a = Memory.read m' a) : m = m' :=
  Memory.ext_from h h' e

/-! ## Sets of sources -/

theorem SourceSet.mem_insert (l : SourceSet) (s q : IrqSource) : q ∈ l.insert s ↔ q = s ∨ q ∈ l := by
  induction l with
  | nil => simp [SourceSet.insert]
  | cons t l ih =>
    unfold SourceSet.insert
    split
    · simp
    · split
      · rename_i h; subst h; simp
      · simp only [List.mem_cons, ih]; tauto

theorem SourceSet.insert_insert (l : SourceSet) (s : IrqSource) : (l.insert s).insert s = l.insert s := by
  induction l with
  | nil => simp [SourceSet.insert]
  | cons t l ih =>
    by_cases h1 : s < t
    · simp [SourceSet.insert, h1]
    · by_cases h2 : s = t
      · simp [SourceSet.insert, h2]
      · simp [SourceSet.insert, h1, h2, ih]

theorem SourceSet.mem_erase (l : SourceSet) (s q : IrqSource) : q ∈ SourceSet.erase l s ↔ q ∈ l ∧ q ≠ s := by
  simp [SourceSet.erase]

theorem SourceSet.risingFrom_mono {l : SourceSet} {b b' : Nat} (hb : b' ≤ b) (h : SourceSet.risingFrom b l = true) :
    SourceSet.risingFrom b' l = true := by
  cases l with
  | nil => rfl
  | cons t l =>
    simp only [SourceSet.risingFrom, Bool.and_eq_true, decide_eq_true_eq] at h ⊢
    exact ⟨by omega, h.2⟩

theorem SourceSet.risingFrom_filter {l : SourceSet} {b : Nat} (p : IrqSource → Bool)
    (h : SourceSet.risingFrom b l = true) : SourceSet.risingFrom b (l.filter p) = true := by
  induction l generalizing b with
  | nil => rfl
  | cons t l ih =>
    simp only [SourceSet.risingFrom, Bool.and_eq_true, decide_eq_true_eq] at h
    rw [List.filter_cons]
    split
    · simp only [SourceSet.risingFrom, Bool.and_eq_true, decide_eq_true_eq]
      exact ⟨h.1, ih h.2⟩
    · exact SourceSet.risingFrom_mono (by omega) (ih h.2)

theorem SourceSet.risingFrom_insert {l : SourceSet} {b : Nat} {s : IrqSource} (hs : b ≤ s)
    (h : SourceSet.risingFrom b l = true) : SourceSet.risingFrom b (l.insert s) = true := by
  induction l generalizing b with
  | nil => simp [SourceSet.insert, SourceSet.risingFrom, hs]
  | cons t l ih =>
    simp only [SourceSet.risingFrom, Bool.and_eq_true, decide_eq_true_eq] at h
    unfold SourceSet.insert
    split
    · simp only [SourceSet.risingFrom, Bool.and_eq_true, decide_eq_true_eq]
      rename_i h1
      exact ⟨hs, h1, h.2⟩
    · split
      · simp only [SourceSet.risingFrom, Bool.and_eq_true, decide_eq_true_eq]; exact h
      · rename_i h1 h2
        simp only [SourceSet.risingFrom, Bool.and_eq_true, decide_eq_true_eq]
        exact ⟨h.1, ih (Nat.lt_of_le_of_ne (Nat.le_of_not_lt h1) (fun e => h2 e.symm)) h.2⟩

theorem SourceSet.wf_insert {l : SourceSet} (h : l.wf = true) (s : IrqSource) : (l.insert s).wf = true :=
  SourceSet.risingFrom_insert (Nat.zero_le _) h

theorem SourceSet.wf_filter {l : SourceSet} (h : l.wf = true) (p : IrqSource → Bool) :
    SourceSet.wf (l.filter p) = true :=
  SourceSet.risingFrom_filter p h

end Sys2Proof.Machine
end

