-- ==== Sys2Proof/Laws/State.lean ====
section
/-! SUPPORT. One lemma per field per update of State, each true by definition, so that no proof unfolds a record update. -/

namespace Sys2Proof.Machine

/-! ### setA -/

@[simp] theorem State.setA_a (s : State) (v : Byte) : (s.setA v).a = v := rfl
@[simp] theorem State.setA_x (s : State) (v : Byte) : (s.setA v).x = s.x := rfl
@[simp] theorem State.setA_y (s : State) (v : Byte) : (s.setA v).y = s.y := rfl
@[simp] theorem State.setA_sp (s : State) (v : Byte) : (s.setA v).sp = s.sp := rfl
@[simp] theorem State.setA_pc (s : State) (v : Byte) : (s.setA v).pc = s.pc := rfl
@[simp] theorem State.setA_flags (s : State) (v : Byte) : (s.setA v).flags = s.flags := rfl
@[simp] theorem State.setA_run (s : State) (v : Byte) : (s.setA v).run = s.run := rfl
@[simp] theorem State.setA_lines (s : State) (v : Byte) : (s.setA v).lines = s.lines := rfl
@[simp] theorem State.setA_mem (s : State) (v : Byte) : (s.setA v).mem = s.mem := rfl
@[simp] theorem State.setA_params (s : State) (v : Byte) : (s.setA v).params = s.params := rfl
@[simp] theorem State.setA_draws (s : State) (v : Byte) : (s.setA v).draws = s.draws := rfl
@[simp] theorem State.setA_out (s : State) (v : Byte) : (s.setA v).out = s.out := rfl

/-! ### setX -/

@[simp] theorem State.setX_a (s : State) (v : Byte) : (s.setX v).a = s.a := rfl
@[simp] theorem State.setX_x (s : State) (v : Byte) : (s.setX v).x = v := rfl
@[simp] theorem State.setX_y (s : State) (v : Byte) : (s.setX v).y = s.y := rfl
@[simp] theorem State.setX_sp (s : State) (v : Byte) : (s.setX v).sp = s.sp := rfl
@[simp] theorem State.setX_pc (s : State) (v : Byte) : (s.setX v).pc = s.pc := rfl
@[simp] theorem State.setX_flags (s : State) (v : Byte) : (s.setX v).flags = s.flags := rfl
@[simp] theorem State.setX_run (s : State) (v : Byte) : (s.setX v).run = s.run := rfl
@[simp] theorem State.setX_lines (s : State) (v : Byte) : (s.setX v).lines = s.lines := rfl
@[simp] theorem State.setX_mem (s : State) (v : Byte) : (s.setX v).mem = s.mem := rfl
@[simp] theorem State.setX_params (s : State) (v : Byte) : (s.setX v).params = s.params := rfl
@[simp] theorem State.setX_draws (s : State) (v : Byte) : (s.setX v).draws = s.draws := rfl
@[simp] theorem State.setX_out (s : State) (v : Byte) : (s.setX v).out = s.out := rfl

/-! ### setY -/

@[simp] theorem State.setY_a (s : State) (v : Byte) : (s.setY v).a = s.a := rfl
@[simp] theorem State.setY_x (s : State) (v : Byte) : (s.setY v).x = s.x := rfl
@[simp] theorem State.setY_y (s : State) (v : Byte) : (s.setY v).y = v := rfl
@[simp] theorem State.setY_sp (s : State) (v : Byte) : (s.setY v).sp = s.sp := rfl
@[simp] theorem State.setY_pc (s : State) (v : Byte) : (s.setY v).pc = s.pc := rfl
@[simp] theorem State.setY_flags (s : State) (v : Byte) : (s.setY v).flags = s.flags := rfl
@[simp] theorem State.setY_run (s : State) (v : Byte) : (s.setY v).run = s.run := rfl
@[simp] theorem State.setY_lines (s : State) (v : Byte) : (s.setY v).lines = s.lines := rfl
@[simp] theorem State.setY_mem (s : State) (v : Byte) : (s.setY v).mem = s.mem := rfl
@[simp] theorem State.setY_params (s : State) (v : Byte) : (s.setY v).params = s.params := rfl
@[simp] theorem State.setY_draws (s : State) (v : Byte) : (s.setY v).draws = s.draws := rfl
@[simp] theorem State.setY_out (s : State) (v : Byte) : (s.setY v).out = s.out := rfl

/-! ### setSp -/

@[simp] theorem State.setSp_a (s : State) (v : Byte) : (s.setSp v).a = s.a := rfl
@[simp] theorem State.setSp_x (s : State) (v : Byte) : (s.setSp v).x = s.x := rfl
@[simp] theorem State.setSp_y (s : State) (v : Byte) : (s.setSp v).y = s.y := rfl
@[simp] theorem State.setSp_sp (s : State) (v : Byte) : (s.setSp v).sp = v := rfl
@[simp] theorem State.setSp_pc (s : State) (v : Byte) : (s.setSp v).pc = s.pc := rfl
@[simp] theorem State.setSp_flags (s : State) (v : Byte) : (s.setSp v).flags = s.flags := rfl
@[simp] theorem State.setSp_run (s : State) (v : Byte) : (s.setSp v).run = s.run := rfl
@[simp] theorem State.setSp_lines (s : State) (v : Byte) : (s.setSp v).lines = s.lines := rfl
@[simp] theorem State.setSp_mem (s : State) (v : Byte) : (s.setSp v).mem = s.mem := rfl
@[simp] theorem State.setSp_params (s : State) (v : Byte) : (s.setSp v).params = s.params := rfl
@[simp] theorem State.setSp_draws (s : State) (v : Byte) : (s.setSp v).draws = s.draws := rfl
@[simp] theorem State.setSp_out (s : State) (v : Byte) : (s.setSp v).out = s.out := rfl

/-! ### setPc -/

@[simp] theorem State.setPc_a (s : State) (w : Word) : (s.setPc w).a = s.a := rfl
@[simp] theorem State.setPc_x (s : State) (w : Word) : (s.setPc w).x = s.x := rfl
@[simp] theorem State.setPc_y (s : State) (w : Word) : (s.setPc w).y = s.y := rfl
@[simp] theorem State.setPc_sp (s : State) (w : Word) : (s.setPc w).sp = s.sp := rfl
@[simp] theorem State.setPc_pc (s : State) (w : Word) : (s.setPc w).pc = w := rfl
@[simp] theorem State.setPc_flags (s : State) (w : Word) : (s.setPc w).flags = s.flags := rfl
@[simp] theorem State.setPc_run (s : State) (w : Word) : (s.setPc w).run = s.run := rfl
@[simp] theorem State.setPc_lines (s : State) (w : Word) : (s.setPc w).lines = s.lines := rfl
@[simp] theorem State.setPc_mem (s : State) (w : Word) : (s.setPc w).mem = s.mem := rfl
@[simp] theorem State.setPc_params (s : State) (w : Word) : (s.setPc w).params = s.params := rfl
@[simp] theorem State.setPc_draws (s : State) (w : Word) : (s.setPc w).draws = s.draws := rfl
@[simp] theorem State.setPc_out (s : State) (w : Word) : (s.setPc w).out = s.out := rfl

/-! ### setFlags -/

@[simp] theorem State.setFlags_a (s : State) (f : Flags) : (s.setFlags f).a = s.a := rfl
@[simp] theorem State.setFlags_x (s : State) (f : Flags) : (s.setFlags f).x = s.x := rfl
@[simp] theorem State.setFlags_y (s : State) (f : Flags) : (s.setFlags f).y = s.y := rfl
@[simp] theorem State.setFlags_sp (s : State) (f : Flags) : (s.setFlags f).sp = s.sp := rfl
@[simp] theorem State.setFlags_pc (s : State) (f : Flags) : (s.setFlags f).pc = s.pc := rfl
@[simp] theorem State.setFlags_flags (s : State) (f : Flags) : (s.setFlags f).flags = f := rfl
@[simp] theorem State.setFlags_run (s : State) (f : Flags) : (s.setFlags f).run = s.run := rfl
@[simp] theorem State.setFlags_lines (s : State) (f : Flags) : (s.setFlags f).lines = s.lines := rfl
@[simp] theorem State.setFlags_mem (s : State) (f : Flags) : (s.setFlags f).mem = s.mem := rfl
@[simp] theorem State.setFlags_params (s : State) (f : Flags) : (s.setFlags f).params = s.params := rfl
@[simp] theorem State.setFlags_draws (s : State) (f : Flags) : (s.setFlags f).draws = s.draws := rfl
@[simp] theorem State.setFlags_out (s : State) (f : Flags) : (s.setFlags f).out = s.out := rfl

/-! ### setLines -/

@[simp] theorem State.setLines_a (s : State) (l : Lines) : (s.setLines l).a = s.a := rfl
@[simp] theorem State.setLines_x (s : State) (l : Lines) : (s.setLines l).x = s.x := rfl
@[simp] theorem State.setLines_y (s : State) (l : Lines) : (s.setLines l).y = s.y := rfl
@[simp] theorem State.setLines_sp (s : State) (l : Lines) : (s.setLines l).sp = s.sp := rfl
@[simp] theorem State.setLines_pc (s : State) (l : Lines) : (s.setLines l).pc = s.pc := rfl
@[simp] theorem State.setLines_flags (s : State) (l : Lines) : (s.setLines l).flags = s.flags := rfl
@[simp] theorem State.setLines_run (s : State) (l : Lines) : (s.setLines l).run = s.run := rfl
@[simp] theorem State.setLines_lines (s : State) (l : Lines) : (s.setLines l).lines = l := rfl
@[simp] theorem State.setLines_mem (s : State) (l : Lines) : (s.setLines l).mem = s.mem := rfl
@[simp] theorem State.setLines_params (s : State) (l : Lines) : (s.setLines l).params = s.params := rfl
@[simp] theorem State.setLines_draws (s : State) (l : Lines) : (s.setLines l).draws = s.draws := rfl
@[simp] theorem State.setLines_out (s : State) (l : Lines) : (s.setLines l).out = s.out := rfl

/-! ### setMem -/

@[simp] theorem State.setMem_a (s : State) (m : Memory) : (s.setMem m).a = s.a := rfl
@[simp] theorem State.setMem_x (s : State) (m : Memory) : (s.setMem m).x = s.x := rfl
@[simp] theorem State.setMem_y (s : State) (m : Memory) : (s.setMem m).y = s.y := rfl
@[simp] theorem State.setMem_sp (s : State) (m : Memory) : (s.setMem m).sp = s.sp := rfl
@[simp] theorem State.setMem_pc (s : State) (m : Memory) : (s.setMem m).pc = s.pc := rfl
@[simp] theorem State.setMem_flags (s : State) (m : Memory) : (s.setMem m).flags = s.flags := rfl
@[simp] theorem State.setMem_run (s : State) (m : Memory) : (s.setMem m).run = s.run := rfl
@[simp] theorem State.setMem_lines (s : State) (m : Memory) : (s.setMem m).lines = s.lines := rfl
@[simp] theorem State.setMem_mem (s : State) (m : Memory) : (s.setMem m).mem = m := rfl
@[simp] theorem State.setMem_params (s : State) (m : Memory) : (s.setMem m).params = s.params := rfl
@[simp] theorem State.setMem_draws (s : State) (m : Memory) : (s.setMem m).draws = s.draws := rfl
@[simp] theorem State.setMem_out (s : State) (m : Memory) : (s.setMem m).out = s.out := rfl

/-! ### setDraws -/

@[simp] theorem State.setDraws_a (s : State) (n : Nat) : (s.setDraws n).a = s.a := rfl
@[simp] theorem State.setDraws_x (s : State) (n : Nat) : (s.setDraws n).x = s.x := rfl
@[simp] theorem State.setDraws_y (s : State) (n : Nat) : (s.setDraws n).y = s.y := rfl
@[simp] theorem State.setDraws_sp (s : State) (n : Nat) : (s.setDraws n).sp = s.sp := rfl
@[simp] theorem State.setDraws_pc (s : State) (n : Nat) : (s.setDraws n).pc = s.pc := rfl
@[simp] theorem State.setDraws_flags (s : State) (n : Nat) : (s.setDraws n).flags = s.flags := rfl
@[simp] theorem State.setDraws_run (s : State) (n : Nat) : (s.setDraws n).run = s.run := rfl
@[simp] theorem State.setDraws_lines (s : State) (n : Nat) : (s.setDraws n).lines = s.lines := rfl
@[simp] theorem State.setDraws_mem (s : State) (n : Nat) : (s.setDraws n).mem = s.mem := rfl
@[simp] theorem State.setDraws_params (s : State) (n : Nat) : (s.setDraws n).params = s.params := rfl
@[simp] theorem State.setDraws_draws (s : State) (n : Nat) : (s.setDraws n).draws = n := rfl
@[simp] theorem State.setDraws_out (s : State) (n : Nat) : (s.setDraws n).out = s.out := rfl

/-! ### setOut -/

@[simp] theorem State.setOut_a (s : State) (o : StepOutput) : (s.setOut o).a = s.a := rfl
@[simp] theorem State.setOut_x (s : State) (o : StepOutput) : (s.setOut o).x = s.x := rfl
@[simp] theorem State.setOut_y (s : State) (o : StepOutput) : (s.setOut o).y = s.y := rfl
@[simp] theorem State.setOut_sp (s : State) (o : StepOutput) : (s.setOut o).sp = s.sp := rfl
@[simp] theorem State.setOut_pc (s : State) (o : StepOutput) : (s.setOut o).pc = s.pc := rfl
@[simp] theorem State.setOut_flags (s : State) (o : StepOutput) : (s.setOut o).flags = s.flags := rfl
@[simp] theorem State.setOut_run (s : State) (o : StepOutput) : (s.setOut o).run = s.run := rfl
@[simp] theorem State.setOut_lines (s : State) (o : StepOutput) : (s.setOut o).lines = s.lines := rfl
@[simp] theorem State.setOut_mem (s : State) (o : StepOutput) : (s.setOut o).mem = s.mem := rfl
@[simp] theorem State.setOut_params (s : State) (o : StepOutput) : (s.setOut o).params = s.params := rfl
@[simp] theorem State.setOut_draws (s : State) (o : StepOutput) : (s.setOut o).draws = s.draws := rfl
@[simp] theorem State.setOut_out (s : State) (o : StepOutput) : (s.setOut o).out = o := rfl

/-! ### setRun -/

@[simp] theorem State.setRun_a (s : State) (r : RunState) : (s.setRun r).a = s.a := rfl
@[simp] theorem State.setRun_x (s : State) (r : RunState) : (s.setRun r).x = s.x := rfl
@[simp] theorem State.setRun_y (s : State) (r : RunState) : (s.setRun r).y = s.y := rfl
@[simp] theorem State.setRun_sp (s : State) (r : RunState) : (s.setRun r).sp = s.sp := rfl
@[simp] theorem State.setRun_pc (s : State) (r : RunState) : (s.setRun r).pc = s.pc := rfl
@[simp] theorem State.setRun_flags (s : State) (r : RunState) : (s.setRun r).flags = s.flags := rfl
@[simp] theorem State.setRun_run (s : State) (r : RunState) : (s.setRun r).run = r := rfl
@[simp] theorem State.setRun_lines (s : State) (r : RunState) : (s.setRun r).lines = s.lines := rfl
@[simp] theorem State.setRun_mem (s : State) (r : RunState) : (s.setRun r).mem = s.mem := rfl
@[simp] theorem State.setRun_params (s : State) (r : RunState) : (s.setRun r).params = s.params := rfl
@[simp] theorem State.setRun_draws (s : State) (r : RunState) : (s.setRun r).draws = s.draws := rfl
@[simp] theorem State.setRun_out (s : State) (r : RunState) : (s.setRun r).out = s.out := rfl

/-! ### setZN -/

@[simp] theorem State.setZN_a (s : State) (v : Byte) : (s.setZN v).a = s.a := rfl
@[simp] theorem State.setZN_x (s : State) (v : Byte) : (s.setZN v).x = s.x := rfl
@[simp] theorem State.setZN_y (s : State) (v : Byte) : (s.setZN v).y = s.y := rfl
@[simp] theorem State.setZN_sp (s : State) (v : Byte) : (s.setZN v).sp = s.sp := rfl
@[simp] theorem State.setZN_pc (s : State) (v : Byte) : (s.setZN v).pc = s.pc := rfl
@[simp] theorem State.setZN_flags (s : State) (v : Byte) : (s.setZN v).flags = s.flags.setZN v := rfl
@[simp] theorem State.setZN_run (s : State) (v : Byte) : (s.setZN v).run = s.run := rfl
@[simp] theorem State.setZN_lines (s : State) (v : Byte) : (s.setZN v).lines = s.lines := rfl
@[simp] theorem State.setZN_mem (s : State) (v : Byte) : (s.setZN v).mem = s.mem := rfl
@[simp] theorem State.setZN_params (s : State) (v : Byte) : (s.setZN v).params = s.params := rfl
@[simp] theorem State.setZN_draws (s : State) (v : Byte) : (s.setZN v).draws = s.draws := rfl
@[simp] theorem State.setZN_out (s : State) (v : Byte) : (s.setZN v).out = s.out := rfl

/-! ### beginOutput -/

@[simp] theorem State.beginOutput_a (s : State) : (s.beginOutput).a = s.a := rfl
@[simp] theorem State.beginOutput_x (s : State) : (s.beginOutput).x = s.x := rfl
@[simp] theorem State.beginOutput_y (s : State) : (s.beginOutput).y = s.y := rfl
@[simp] theorem State.beginOutput_sp (s : State) : (s.beginOutput).sp = s.sp := rfl
@[simp] theorem State.beginOutput_pc (s : State) : (s.beginOutput).pc = s.pc := rfl
@[simp] theorem State.beginOutput_flags (s : State) : (s.beginOutput).flags = s.flags := rfl
@[simp] theorem State.beginOutput_run (s : State) : (s.beginOutput).run = s.run := rfl
@[simp] theorem State.beginOutput_lines (s : State) : (s.beginOutput).lines = s.lines := rfl
@[simp] theorem State.beginOutput_mem (s : State) : (s.beginOutput).mem = s.mem := rfl
@[simp] theorem State.beginOutput_params (s : State) : (s.beginOutput).params = s.params := rfl
@[simp] theorem State.beginOutput_draws (s : State) : (s.beginOutput).draws = s.draws := rfl
@[simp] theorem State.beginOutput_out_cycles (s : State) : (s.beginOutput).out.cycles = 0 := rfl
@[simp] theorem State.beginOutput_out_outcomes (s : State) : (s.beginOutput).out.outcomes = [] := rfl
@[simp] theorem State.beginOutput_out_accesses (s : State) : (s.beginOutput).out.accesses = [] := rfl

/-! ### signal -/

@[simp] theorem State.signal_a (s : State) (o : Signal) : (s.signal o).a = s.a := rfl
@[simp] theorem State.signal_x (s : State) (o : Signal) : (s.signal o).x = s.x := rfl
@[simp] theorem State.signal_y (s : State) (o : Signal) : (s.signal o).y = s.y := rfl
@[simp] theorem State.signal_sp (s : State) (o : Signal) : (s.signal o).sp = s.sp := rfl
@[simp] theorem State.signal_pc (s : State) (o : Signal) : (s.signal o).pc = s.pc := rfl
@[simp] theorem State.signal_flags (s : State) (o : Signal) : (s.signal o).flags = s.flags := rfl
@[simp] theorem State.signal_run (s : State) (o : Signal) : (s.signal o).run = s.run := rfl
@[simp] theorem State.signal_lines (s : State) (o : Signal) : (s.signal o).lines = s.lines := rfl
@[simp] theorem State.signal_mem (s : State) (o : Signal) : (s.signal o).mem = s.mem := rfl
@[simp] theorem State.signal_params (s : State) (o : Signal) : (s.signal o).params = s.params := rfl
@[simp] theorem State.signal_draws (s : State) (o : Signal) : (s.signal o).draws = s.draws := rfl
@[simp] theorem State.signal_out_cycles (s : State) (o : Signal) : (s.signal o).out.cycles = s.out.cycles := rfl
@[simp] theorem State.signal_out_outcomes (s : State) (o : Signal) : (s.signal o).out.outcomes = s.out.outcomes ++ [o] := rfl
@[simp] theorem State.signal_out_accesses (s : State) (o : Signal) : (s.signal o).out.accesses = s.out.accesses := rfl

/-! ### addCycles -/

@[simp] theorem State.addCycles_a (s : State) (n : Nat) : (s.addCycles n).a = s.a := rfl
@[simp] theorem State.addCycles_x (s : State) (n : Nat) : (s.addCycles n).x = s.x := rfl
@[simp] theorem State.addCycles_y (s : State) (n : Nat) : (s.addCycles n).y = s.y := rfl
@[simp] theorem State.addCycles_sp (s : State) (n : Nat) : (s.addCycles n).sp = s.sp := rfl
@[simp] theorem State.addCycles_pc (s : State) (n : Nat) : (s.addCycles n).pc = s.pc := rfl
@[simp] theorem State.addCycles_flags (s : State) (n : Nat) : (s.addCycles n).flags = s.flags := rfl
@[simp] theorem State.addCycles_run (s : State) (n : Nat) : (s.addCycles n).run = s.run := rfl
@[simp] theorem State.addCycles_lines (s : State) (n : Nat) : (s.addCycles n).lines = s.lines := rfl
@[simp] theorem State.addCycles_mem (s : State) (n : Nat) : (s.addCycles n).mem = s.mem := rfl
@[simp] theorem State.addCycles_params (s : State) (n : Nat) : (s.addCycles n).params = s.params := rfl
@[simp] theorem State.addCycles_draws (s : State) (n : Nat) : (s.addCycles n).draws = s.draws := rfl
@[simp] theorem State.addCycles_out_cycles (s : State) (n : Nat) : (s.addCycles n).out.cycles = s.out.cycles + n := rfl
@[simp] theorem State.addCycles_out_outcomes (s : State) (n : Nat) : (s.addCycles n).out.outcomes = s.out.outcomes := rfl
@[simp] theorem State.addCycles_out_accesses (s : State) (n : Nat) : (s.addCycles n).out.accesses = s.out.accesses := rfl

/-! ### noteAccess -/

@[simp] theorem State.noteAccess_a (s : State) (e : Access) : (s.noteAccess e).a = s.a := rfl
@[simp] theorem State.noteAccess_x (s : State) (e : Access) : (s.noteAccess e).x = s.x := rfl
@[simp] theorem State.noteAccess_y (s : State) (e : Access) : (s.noteAccess e).y = s.y := rfl
@[simp] theorem State.noteAccess_sp (s : State) (e : Access) : (s.noteAccess e).sp = s.sp := rfl
@[simp] theorem State.noteAccess_pc (s : State) (e : Access) : (s.noteAccess e).pc = s.pc := rfl
@[simp] theorem State.noteAccess_flags (s : State) (e : Access) : (s.noteAccess e).flags = s.flags := rfl
@[simp] theorem State.noteAccess_run (s : State) (e : Access) : (s.noteAccess e).run = s.run := rfl
@[simp] theorem State.noteAccess_lines (s : State) (e : Access) : (s.noteAccess e).lines = s.lines := rfl
@[simp] theorem State.noteAccess_mem (s : State) (e : Access) : (s.noteAccess e).mem = s.mem := rfl
@[simp] theorem State.noteAccess_params (s : State) (e : Access) : (s.noteAccess e).params = s.params := rfl
@[simp] theorem State.noteAccess_draws (s : State) (e : Access) : (s.noteAccess e).draws = s.draws := rfl
@[simp] theorem State.noteAccess_out_cycles (s : State) (e : Access) : (s.noteAccess e).out.cycles = s.out.cycles := rfl
@[simp] theorem State.noteAccess_out_outcomes (s : State) (e : Access) : (s.noteAccess e).out.outcomes = s.out.outcomes := rfl
@[simp] theorem State.noteAccess_out_accesses (s : State) (e : Access) : (s.noteAccess e).out.accesses = s.out.accesses ++ [e] := rfl

end Sys2Proof.Machine
end

