-- ==== Sys2Proof/Laws/Port.lean ====
section
/-! SUPPORT. What the memory port, the word reads, the stack, and taking or leaving an interrupt can do: one lemma per operation
and field. Later proofs cite these and do not unfold the operations. -/

namespace Sys2Proof.Machine

open Sys2Proof.Safety

/-! ## Flags and the status byte -/

@[simp] theorem loadStatus_statusByte (b : Bool) (f : Flags) : loadStatus (statusByte b f) = f := by
  obtain ⟨n, v, d, i, z, c⟩ := f
  revert b n v d i z c
  decide

theorem statusByte_breakBit (b : Bool) (f : Flags) : (statusByte b f).getLsbD 4 = b := by
  obtain ⟨n, v, d, i, z, c⟩ := f
  revert b n v d i z c
  decide

theorem statusByte_bit5 (b : Bool) (f : Flags) : (statusByte b f).getLsbD 5 = true := by
  obtain ⟨n, v, d, i, z, c⟩ := f
  revert b n v d i z c
  decide

theorem setZN_eq (f : Flags) (v : Byte) : f.setZN v = flagsZN f v := by
  have h1 : ∀ v : Byte, (v == 0#8) = decide (v.toNat = 0) := by decide
  have h2 : ∀ v : Byte, v.getLsbD 7 = decide (v.toNat ≥ 128) := by decide
  simp only [Flags.setZN, flagsZN, h1, h2]

/-! ## Interrupt lines and hooks -/

theorem afterHooks_add (l : Lines) (n k j : Nat) :
    afterHooks (afterHooks l n k) (n + k) j = afterHooks l n (k + j) := by
  induction j with
  | zero => rfl
  | succ j ih => rw [← Nat.add_assoc, afterHooks, afterHooks, ih, Nat.add_assoc]

@[simp] theorem linesKept_refl (s : State) : LinesKept s s := ⟨fun _ => ⟨rfl, rfl⟩, 0, rfl, rfl⟩

theorem linesKept_trans {s t u : State} (hp : t.params = s.params) (h1 : LinesKept s t) (h2 : LinesKept t u) :
    LinesKept s u := by
  obtain ⟨f1, k1, d1, l1⟩ := h1
  obtain ⟨f2, k2, d2, l2⟩ := h2
  refine ⟨fun h => ?_, k1 + k2, by omega, ?_⟩
  · have e1 := f1 h
    have e2 := f2 (hp ▸ h)
    exact ⟨e2.1.trans e1.1, e2.2.trans e1.2⟩
  · rw [l2, l1, d1, afterHooks_add]

@[simp] theorem linesKept_setA (s t : State) (v : Byte) : LinesKept s (t.setA v) ↔ LinesKept s t :=
  ⟨fun h => ⟨h.plain, h.hooks⟩, fun h => ⟨h.plain, h.hooks⟩⟩
@[simp] theorem linesKept_setX (s t : State) (v : Byte) : LinesKept s (t.setX v) ↔ LinesKept s t :=
  ⟨fun h => ⟨h.plain, h.hooks⟩, fun h => ⟨h.plain, h.hooks⟩⟩
@[simp] theorem linesKept_setY (s t : State) (v : Byte) : LinesKept s (t.setY v) ↔ LinesKept s t :=
  ⟨fun h => ⟨h.plain, h.hooks⟩, fun h => ⟨h.plain, h.hooks⟩⟩
@[simp] theorem linesKept_setSp (s t : State) (v : Byte) : LinesKept s (t.setSp v) ↔ LinesKept s t :=
  ⟨fun h => ⟨h.plain, h.hooks⟩, fun h => ⟨h.plain, h.hooks⟩⟩
@[simp] theorem linesKept_setPc (s t : State) (w : Word) : LinesKept s (t.setPc w) ↔ LinesKept s t :=
  ⟨fun h => ⟨h.plain, h.hooks⟩, fun h => ⟨h.plain, h.hooks⟩⟩
@[simp] theorem linesKept_setFlags (s t : State) (f : Flags) : LinesKept s (t.setFlags f) ↔ LinesKept s t :=
  ⟨fun h => ⟨h.plain, h.hooks⟩, fun h => ⟨h.plain, h.hooks⟩⟩
@[simp] theorem linesKept_setMem (s t : State) (m : Memory) : LinesKept s (t.setMem m) ↔ LinesKept s t :=
  ⟨fun h => ⟨h.plain, h.hooks⟩, fun h => ⟨h.plain, h.hooks⟩⟩
@[simp] theorem linesKept_setOut (s t : State) (o : StepOutput) : LinesKept s (t.setOut o) ↔ LinesKept s t :=
  ⟨fun h => ⟨h.plain, h.hooks⟩, fun h => ⟨h.plain, h.hooks⟩⟩
@[simp] theorem linesKept_setRun (s t : State) (r : RunState) : LinesKept s (t.setRun r) ↔ LinesKept s t :=
  ⟨fun h => ⟨h.plain, h.hooks⟩, fun h => ⟨h.plain, h.hooks⟩⟩
@[simp] theorem linesKept_setZN (s t : State) (v : Byte) : LinesKept s (t.setZN v) ↔ LinesKept s t :=
  ⟨fun h => ⟨h.plain, h.hooks⟩, fun h => ⟨h.plain, h.hooks⟩⟩
@[simp] theorem linesKept_beginOutput (s t : State) : LinesKept s (t.beginOutput) ↔ LinesKept s t :=
  ⟨fun h => ⟨h.plain, h.hooks⟩, fun h => ⟨h.plain, h.hooks⟩⟩
@[simp] theorem linesKept_signal (s t : State) (o : Signal) : LinesKept s (t.signal o) ↔ LinesKept s t :=
  ⟨fun h => ⟨h.plain, h.hooks⟩, fun h => ⟨h.plain, h.hooks⟩⟩
@[simp] theorem linesKept_addCycles (s t : State) (n : Nat) : LinesKept s (t.addCycles n) ↔ LinesKept s t :=
  ⟨fun h => ⟨h.plain, h.hooks⟩, fun h => ⟨h.plain, h.hooks⟩⟩
@[simp] theorem linesKept_noteAccess (s t : State) (e : Access) : LinesKept s (t.noteAccess e) ↔ LinesKept s t :=
  ⟨fun h => ⟨h.plain, h.hooks⟩, fun h => ⟨h.plain, h.hooks⟩⟩
@[simp] theorem linesKept_setA_left (s t : State) (v : Byte) : LinesKept (s.setA v) t ↔ LinesKept s t :=
  ⟨fun h => ⟨h.plain, h.hooks⟩, fun h => ⟨h.plain, h.hooks⟩⟩
@[simp] theorem linesKept_setX_left (s t : State) (v : Byte) : LinesKept (s.setX v) t ↔ LinesKept s t :=
  ⟨fun h => ⟨h.plain, h.hooks⟩, fun h => ⟨h.plain, h.hooks⟩⟩
@[simp] theorem linesKept_setY_left (s t : State) (v : Byte) : LinesKept (s.setY v) t ↔ LinesKept s t :=
  ⟨fun h => ⟨h.plain, h.hooks⟩, fun h => ⟨h.plain, h.hooks⟩⟩
@[simp] theorem linesKept_setSp_left (s t : State) (v : Byte) : LinesKept (s.setSp v) t ↔ LinesKept s t :=
  ⟨fun h => ⟨h.plain, h.hooks⟩, fun h => ⟨h.plain, h.hooks⟩⟩
@[simp] theorem linesKept_setPc_left (s t : State) (w : Word) : LinesKept (s.setPc w) t ↔ LinesKept s t :=
  ⟨fun h => ⟨h.plain, h.hooks⟩, fun h => ⟨h.plain, h.hooks⟩⟩
@[simp] theorem linesKept_setFlags_left (s t : State) (f : Flags) : LinesKept (s.setFlags f) t ↔ LinesKept s t :=
  ⟨fun h => ⟨h.plain, h.hooks⟩, fun h => ⟨h.plain, h.hooks⟩⟩
@[simp] theorem linesKept_setMem_left (s t : State) (m : Memory) : LinesKept (s.setMem m) t ↔ LinesKept s t :=
  ⟨fun h => ⟨h.plain, h.hooks⟩, fun h => ⟨h.plain, h.hooks⟩⟩
@[simp] theorem linesKept_setOut_left (s t : State) (o : StepOutput) : LinesKept (s.setOut o) t ↔ LinesKept s t :=
  ⟨fun h => ⟨h.plain, h.hooks⟩, fun h => ⟨h.plain, h.hooks⟩⟩
@[simp] theorem linesKept_setRun_left (s t : State) (r : RunState) : LinesKept (s.setRun r) t ↔ LinesKept s t :=
  ⟨fun h => ⟨h.plain, h.hooks⟩, fun h => ⟨h.plain, h.hooks⟩⟩
@[simp] theorem linesKept_setZN_left (s t : State) (v : Byte) : LinesKept (s.setZN v) t ↔ LinesKept s t :=
  ⟨fun h => ⟨h.plain, h.hooks⟩, fun h => ⟨h.plain, h.hooks⟩⟩
@[simp] theorem linesKept_beginOutput_left (s t : State) : LinesKept (s.beginOutput) t ↔ LinesKept s t :=
  ⟨fun h => ⟨h.plain, h.hooks⟩, fun h => ⟨h.plain, h.hooks⟩⟩
@[simp] theorem linesKept_signal_left (s t : State) (o : Signal) : LinesKept (s.signal o) t ↔ LinesKept s t :=
  ⟨fun h => ⟨h.plain, h.hooks⟩, fun h => ⟨h.plain, h.hooks⟩⟩
@[simp] theorem linesKept_addCycles_left (s t : State) (n : Nat) : LinesKept (s.addCycles n) t ↔ LinesKept s t :=
  ⟨fun h => ⟨h.plain, h.hooks⟩, fun h => ⟨h.plain, h.hooks⟩⟩
@[simp] theorem linesKept_noteAccess_left (s t : State) (e : Access) : LinesKept (s.noteAccess e) t ↔ LinesKept s t :=
  ⟨fun h => ⟨h.plain, h.hooks⟩, fun h => ⟨h.plain, h.hooks⟩⟩

theorem wf_applyLineOp {l : Lines} (h : l.irqActive.wf = true) (op : LineOp) : (applyLineOp op l).irqActive.wf = true := by
  cases op with
  | activate q => exact SourceSet.wf_insert h q
  | deactivate q => exact SourceSet.wf_filter h _
  | nmiRaise => simp only [applyLineOp]; split <;> exact h
  | nmiClear => exact h

theorem wf_applyAll {l : Lines} (h : l.irqActive.wf = true) (ops : List LineOp) : (l.applyAll ops).irqActive.wf = true := by
  induction ops generalizing l with
  | nil => exact h
  | cons op ops ih => exact ih (wf_applyLineOp h op)

theorem wf_afterHooks {l : Lines} (h : l.irqActive.wf = true) (n k : Nat) : (afterHooks l n k).irqActive.wf = true := by
  induction k with
  | zero => exact h
  | succ k ih => exact wf_applyAll ih _

theorem linesKept_wf {s t : State} (h : LinesKept s t) (hs : s.lines.irqActive.wf = true) : t.lines.irqActive.wf = true := by
  obtain ⟨_, k, _, hl⟩ := h
  rw [hl]
  exact wf_afterHooks hs _ _

theorem plainRam_of_allPlain {p : Params} (h : p.hooked = []) (a : Word) : plainRam p a = true := by
  simp [plainRam, h]

/-! ## hookActs -/

@[simp] theorem State.hookActs_a (s : State) : (s.hookActs).a = s.a := by
  rfl
@[simp] theorem State.hookActs_x (s : State) : (s.hookActs).x = s.x := by
  rfl
@[simp] theorem State.hookActs_y (s : State) : (s.hookActs).y = s.y := by
  rfl
@[simp] theorem State.hookActs_pc (s : State) : (s.hookActs).pc = s.pc := by
  rfl
@[simp] theorem State.hookActs_flags (s : State) : (s.hookActs).flags = s.flags := by
  rfl
@[simp] theorem State.hookActs_run (s : State) : (s.hookActs).run = s.run := by
  rfl
@[simp] theorem State.hookActs_params (s : State) : (s.hookActs).params = s.params := by
  rfl
@[simp] theorem State.hookActs_sp (s : State) : (s.hookActs).sp = s.sp := by
  rfl
@[simp] theorem State.hookActs_mem (s : State) : (s.hookActs).mem = s.mem := by
  rfl
@[simp] theorem State.hookActs_out (s : State) : (s.hookActs).out = s.out := by
  rfl
@[simp] theorem State.hookActs_draws (s : State) : s.hookActs.draws = s.draws + 1 := rfl

theorem State.hookActs_lines (s : State) : s.hookActs.lines = s.lines.applyAll (Config.hookOps s.draws) := rfl

/-! ## memRead -/

@[simp] theorem memRead_a (a : Word) (s : State) : ((memRead a s).2).a = s.a := by
  unfold memRead; split <;> simp
@[simp] theorem memRead_x (a : Word) (s : State) : ((memRead a s).2).x = s.x := by
  unfold memRead; split <;> simp
@[simp] theorem memRead_y (a : Word) (s : State) : ((memRead a s).2).y = s.y := by
  unfold memRead; split <;> simp
@[simp] theorem memRead_pc (a : Word) (s : State) : ((memRead a s).2).pc = s.pc := by
  unfold memRead; split <;> simp
@[simp] theorem memRead_flags (a : Word) (s : State) : ((memRead a s).2).flags = s.flags := by
  unfold memRead; split <;> simp
@[simp] theorem memRead_run (a : Word) (s : State) : ((memRead a s).2).run = s.run := by
  unfold memRead; split <;> simp
@[simp] theorem memRead_params (a : Word) (s : State) : ((memRead a s).2).params = s.params := by
  unfold memRead; split <;> simp
@[simp] theorem memRead_sp (a : Word) (s : State) : ((memRead a s).2).sp = s.sp := by
  unfold memRead; split <;> simp
@[simp] theorem memRead_mem (a : Word) (s : State) : ((memRead a s).2).mem = s.mem := by
  unfold memRead; split <;> simp
@[simp] theorem memRead_out_cycles (a : Word) (s : State) : ((memRead a s).2).out.cycles = s.out.cycles := by
  unfold memRead; split <;> simp
@[simp] theorem memRead_out_outcomes (a : Word) (s : State) : ((memRead a s).2).out.outcomes = s.out.outcomes := by
  unfold memRead; split <;> simp

@[simp] theorem memRead_accesses (a : Word) (s : State) :
    (memRead a s).2.out.accesses = s.out.accesses ++ [.read a (s.portByte a)] := by
  unfold memRead; split <;> simp

@[simp] theorem memRead_byte (a : Word) (s : State) : (memRead a s).1 = s.portByte a := rfl

theorem portByte_plain {s : State} {a : Word} (h : plainRam s.params a = true) : s.portByte a = s.mem.read a.toNat := by
  simp [State.portByte, h]

@[simp] theorem memRead_linesKept (a : Word) (s : State) : LinesKept s (memRead a s).2 := by
  unfold memRead
  split
  · simp
  · rename_i h
    refine ⟨fun hp => absurd (plainRam_of_allPlain hp a) h, 1, rfl, ?_⟩
    simp [afterHooks, State.hookActs_lines]

/-! ## memWrite -/

@[simp] theorem memWrite_a (a : Word) (v : Byte) (s : State) : (memWrite a v s).a = s.a := by
  unfold memWrite; split <;> simp
@[simp] theorem memWrite_x (a : Word) (v : Byte) (s : State) : (memWrite a v s).x = s.x := by
  unfold memWrite; split <;> simp
@[simp] theorem memWrite_y (a : Word) (v : Byte) (s : State) : (memWrite a v s).y = s.y := by
  unfold memWrite; split <;> simp
@[simp] theorem memWrite_pc (a : Word) (v : Byte) (s : State) : (memWrite a v s).pc = s.pc := by
  unfold memWrite; split <;> simp
@[simp] theorem memWrite_flags (a : Word) (v : Byte) (s : State) : (memWrite a v s).flags = s.flags := by
  unfold memWrite; split <;> simp
@[simp] theorem memWrite_run (a : Word) (v : Byte) (s : State) : (memWrite a v s).run = s.run := by
  unfold memWrite; split <;> simp
@[simp] theorem memWrite_params (a : Word) (v : Byte) (s : State) : (memWrite a v s).params = s.params := by
  unfold memWrite; split <;> simp
@[simp] theorem memWrite_sp (a : Word) (v : Byte) (s : State) : (memWrite a v s).sp = s.sp := by
  unfold memWrite; split <;> simp
@[simp] theorem memWrite_out_cycles (a : Word) (v : Byte) (s : State) : (memWrite a v s).out.cycles = s.out.cycles := by
  unfold memWrite; split <;> simp
@[simp] theorem memWrite_out_outcomes (a : Word) (v : Byte) (s : State) : (memWrite a v s).out.outcomes = s.out.outcomes := by
  unfold memWrite; split <;> simp

@[simp] theorem memWrite_accesses (a : Word) (v : Byte) (s : State) :
    (memWrite a v s).out.accesses = s.out.accesses ++ [.write a v] := by
  unfold memWrite; split <;> simp

/-- What a write on the port does to memory: the byte at a plain RAM address, nothing elsewhere. -/
theorem memWrite_mem (a : Word) (v : Byte) (s : State) :
    (memWrite a v s).mem = if plainRam s.params a then s.mem.write a.toNat v else s.mem := by
  unfold memWrite; split <;> simp

theorem memWrite_read (a : Word) (v : Byte) (s : State) (b : Word) :
    (memWrite a v s).mem.read b.toNat = if b = a ∧ plainRam s.params a then v else s.mem.read b.toNat := by
  rw [memWrite_mem]
  by_cases h : plainRam s.params a
  · by_cases hb : b = a
    · simp [h, hb]
    · have : b.toNat ≠ a.toNat := fun e => hb (BitVec.eq_of_toNat_eq e)
      simp [h, hb, Memory.read_write, this]
  · simp [h]

theorem memWrite_wf (a : Word) (v : Byte) {s : State} (h : s.mem.wf = true) : (memWrite a v s).mem.wf = true := by
  rw [memWrite_mem]
  split
  · exact Memory.wf_write h a.isLt v
  · exact h

@[simp] theorem memWrite_linesKept (a : Word) (v : Byte) (s : State) : LinesKept s (memWrite a v s) := by
  unfold memWrite
  split
  · simp
  · rename_i h
    refine ⟨fun hp => absurd (plainRam_of_allPlain hp a) h, 1, rfl, ?_⟩
    simp [afterHooks, State.hookActs_lines]

/-! ## Word reads -/

@[simp] theorem readPair_a (al ah : Word) (s : State) : ((readPair al ah s).2).a = s.a := by
  simp [readPair]
@[simp] theorem readPair_x (al ah : Word) (s : State) : ((readPair al ah s).2).x = s.x := by
  simp [readPair]
@[simp] theorem readPair_y (al ah : Word) (s : State) : ((readPair al ah s).2).y = s.y := by
  simp [readPair]
@[simp] theorem readPair_pc (al ah : Word) (s : State) : ((readPair al ah s).2).pc = s.pc := by
  simp [readPair]
@[simp] theorem readPair_flags (al ah : Word) (s : State) : ((readPair al ah s).2).flags = s.flags := by
  simp [readPair]
@[simp] theorem readPair_run (al ah : Word) (s : State) : ((readPair al ah s).2).run = s.run := by
  simp [readPair]
@[simp] theorem readPair_params (al ah : Word) (s : State) : ((readPair al ah s).2).params = s.params := by
  simp [readPair]
@[simp] theorem readPair_sp (al ah : Word) (s : State) : ((readPair al ah s).2).sp = s.sp := by
  simp [readPair]
@[simp] theorem readPair_mem (al ah : Word) (s : State) : ((readPair al ah s).2).mem = s.mem := by
  simp [readPair]
@[simp] theorem readPair_out_cycles (al ah : Word) (s : State) : ((readPair al ah s).2).out.cycles = s.out.cycles := by
  simp [readPair]
@[simp] theorem readPair_out_outcomes (al ah : Word) (s : State) : ((readPair al ah s).2).out.outcomes = s.out.outcomes := by
  simp [readPair]
@[simp] theorem readWord_a (a : Word) (s : State) : ((readWord a s).2).a = s.a := by
  simp [readWord]
@[simp] theorem readWord_x (a : Word) (s : State) : ((readWord a s).2).x = s.x := by
  simp [readWord]
@[simp] theorem readWord_y (a : Word) (s : State) : ((readWord a s).2).y = s.y := by
  simp [readWord]
@[simp] theorem readWord_pc (a : Word) (s : State) : ((readWord a s).2).pc = s.pc := by
  simp [readWord]
@[simp] theorem readWord_flags (a : Word) (s : State) : ((readWord a s).2).flags = s.flags := by
  simp [readWord]
@[simp] theorem readWord_run (a : Word) (s : State) : ((readWord a s).2).run = s.run := by
  simp [readWord]
@[simp] theorem readWord_params (a : Word) (s : State) : ((readWord a s).2).params = s.params := by
  simp [readWord]
@[simp] theorem readWord_sp (a : Word) (s : State) : ((readWord a s).2).sp = s.sp := by
  simp [readWord]
@[simp] theorem readWord_mem (a : Word) (s : State) : ((readWord a s).2).mem = s.mem := by
  simp [readWord]
@[simp] theorem readWord_out_cycles (a : Word) (s : State) : ((readWord a s).2).out.cycles = s.out.cycles := by
  simp [readWord]
@[simp] theorem readWord_out_outcomes (a : Word) (s : State) : ((readWord a s).2).out.outcomes = s.out.outcomes := by
  simp [readWord]
@[simp] theorem readWordZP_a (p : Byte) (s : State) : ((readWordZP p s).2).a = s.a := by
  simp [readWordZP]
@[simp] theorem readWordZP_x (p : Byte) (s : State) : ((readWordZP p s).2).x = s.x := by
  simp [readWordZP]
@[simp] theorem readWordZP_y (p : Byte) (s : State) : ((readWordZP p s).2).y = s.y := by
  simp [readWordZP]
@[simp] theorem readWordZP_pc (p : Byte) (s : State) : ((readWordZP p s).2).pc = s.pc := by
  simp [readWordZP]
@[simp] theorem readWordZP_flags (p : Byte) (s : State) : ((readWordZP p s).2).flags = s.flags := by
  simp [readWordZP]
@[simp] theorem readWordZP_run (p : Byte) (s : State) : ((readWordZP p s).2).run = s.run := by
  simp [readWordZP]
@[simp] theorem readWordZP_params (p : Byte) (s : State) : ((readWordZP p s).2).params = s.params := by
  simp [readWordZP]
@[simp] theorem readWordZP_sp (p : Byte) (s : State) : ((readWordZP p s).2).sp = s.sp := by
  simp [readWordZP]
@[simp] theorem readWordZP_mem (p : Byte) (s : State) : ((readWordZP p s).2).mem = s.mem := by
  simp [readWordZP]
@[simp] theorem readWordZP_out_cycles (p : Byte) (s : State) : ((readWordZP p s).2).out.cycles = s.out.cycles := by
  simp [readWordZP]
@[simp] theorem readWordZP_out_outcomes (p : Byte) (s : State) : ((readWordZP p s).2).out.outcomes = s.out.outcomes := by
  simp [readWordZP]
@[simp] theorem readWordPageWrap_a (a : Word) (s : State) : ((readWordPageWrap a s).2).a = s.a := by
  simp [readWordPageWrap]
@[simp] theorem readWordPageWrap_x (a : Word) (s : State) : ((readWordPageWrap a s).2).x = s.x := by
  simp [readWordPageWrap]
@[simp] theorem readWordPageWrap_y (a : Word) (s : State) : ((readWordPageWrap a s).2).y = s.y := by
  simp [readWordPageWrap]
@[simp] theorem readWordPageWrap_pc (a : Word) (s : State) : ((readWordPageWrap a s).2).pc = s.pc := by
  simp [readWordPageWrap]
@[simp] theorem readWordPageWrap_flags (a : Word) (s : State) : ((readWordPageWrap a s).2).flags = s.flags := by
  simp [readWordPageWrap]
@[simp] theorem readWordPageWrap_run (a : Word) (s : State) : ((readWordPageWrap a s).2).run = s.run := by
  simp [readWordPageWrap]
@[simp] theorem readWordPageWrap_params (a : Word) (s : State) : ((readWordPageWrap a s).2).params = s.params := by
  simp [readWordPageWrap]
@[simp] theorem readWordPageWrap_sp (a : Word) (s : State) : ((readWordPageWrap a s).2).sp = s.sp := by
  simp [readWordPageWrap]
@[simp] theorem readWordPageWrap_mem (a : Word) (s : State) : ((readWordPageWrap a s).2).mem = s.mem := by
  simp [readWordPageWrap]
@[simp] theorem readWordPageWrap_out_cycles (a : Word) (s : State) : ((readWordPageWrap a s).2).out.cycles = s.out.cycles := by
  simp [readWordPageWrap]
@[simp] theorem readWordPageWrap_out_outcomes (a : Word) (s : State) : ((readWordPageWrap a s).2).out.outcomes = s.out.outcomes := by
  simp [readWordPageWrap]

@[simp] theorem readPair_linesKept (al ah : Word) (s : State) : LinesKept s (readPair al ah s).2 :=
  linesKept_trans (by simp) (memRead_linesKept al s) (memRead_linesKept ah _)

@[simp] theorem readWord_linesKept (a : Word) (s : State) : LinesKept s (readWord a s).2 := readPair_linesKept _ _ s

@[simp] theorem readWordZP_linesKept (p : Byte) (s : State) : LinesKept s (readWordZP p s).2 := readPair_linesKept _ _ s

@[simp] theorem readWordPageWrap_linesKept (a : Word) (s : State) : LinesKept s (readWordPageWrap a s).2 := readPair_linesKept _ _ s

/-- A word read from two plain RAM addresses is the little-endian word that memory holds there. -/
theorem readPair_plain {al ah : Word} {s : State} (hl : plainRam s.params al = true) (hh : plainRam s.params ah = true) :
    (readPair al ah s).1.toNat = wordIn s.mem al ah := by
  have h2 : plainRam (memRead al s).2.params ah = true := by simpa using hh
  simp only [readPair, memRead_byte, toNat_word, portByte_plain hl, portByte_plain h2, memRead_mem, wordIn]
  omega

theorem readPair_accesses (al ah : Word) (s : State) :
    accessesOf (readPair al ah s).2.out = accessesOf s.out ++ [.r al, .r ah] := by
  simp [readPair, accessesOf, accessAt]

/-! ## The stack -/

@[simp] theorem push8_a (v : Byte) (s : State) : (push8 v s).a = s.a := by
  simp [push8]
@[simp] theorem push8_x (v : Byte) (s : State) : (push8 v s).x = s.x := by
  simp [push8]
@[simp] theorem push8_y (v : Byte) (s : State) : (push8 v s).y = s.y := by
  simp [push8]
@[simp] theorem push8_pc (v : Byte) (s : State) : (push8 v s).pc = s.pc := by
  simp [push8]
@[simp] theorem push8_flags (v : Byte) (s : State) : (push8 v s).flags = s.flags := by
  simp [push8]
@[simp] theorem push8_run (v : Byte) (s : State) : (push8 v s).run = s.run := by
  simp [push8]
@[simp] theorem push8_params (v : Byte) (s : State) : (push8 v s).params = s.params := by
  simp [push8]
@[simp] theorem push8_out_cycles (v : Byte) (s : State) : (push8 v s).out.cycles = s.out.cycles := by
  simp [push8]
@[simp] theorem push8_out_outcomes (v : Byte) (s : State) : (push8 v s).out.outcomes = s.out.outcomes := by
  simp [push8]
@[simp] theorem push8_sp (v : Byte) (s : State) : (push8 v s).sp = s.sp - 1#8 := by simp [push8]

@[simp] theorem push16_a (w : Word) (s : State) : (push16 w s).a = s.a := by
  simp [push16]
@[simp] theorem push16_x (w : Word) (s : State) : (push16 w s).x = s.x := by
  simp [push16]
@[simp] theorem push16_y (w : Word) (s : State) : (push16 w s).y = s.y := by
  simp [push16]
@[simp] theorem push16_pc (w : Word) (s : State) : (push16 w s).pc = s.pc := by
  simp [push16]
@[simp] theorem push16_flags (w : Word) (s : State) : (push16 w s).flags = s.flags := by
  simp [push16]
@[simp] theorem push16_run (w : Word) (s : State) : (push16 w s).run = s.run := by
  simp [push16]
@[simp] theorem push16_params (w : Word) (s : State) : (push16 w s).params = s.params := by
  simp [push16]
@[simp] theorem push16_out_cycles (w : Word) (s : State) : (push16 w s).out.cycles = s.out.cycles := by
  simp [push16]
@[simp] theorem push16_out_outcomes (w : Word) (s : State) : (push16 w s).out.outcomes = s.out.outcomes := by
  simp [push16]
@[simp] theorem push16_sp (w : Word) (s : State) : (push16 w s).sp = s.sp - 2#8 := by
  simp [push16]; bv_omega

@[simp] theorem pull8_a (s : State) : ((pull8 s).2).a = s.a := by
  simp [pull8]
@[simp] theorem pull8_x (s : State) : ((pull8 s).2).x = s.x := by
  simp [pull8]
@[simp] theorem pull8_y (s : State) : ((pull8 s).2).y = s.y := by
  simp [pull8]
@[simp] theorem pull8_pc (s : State) : ((pull8 s).2).pc = s.pc := by
  simp [pull8]
@[simp] theorem pull8_flags (s : State) : ((pull8 s).2).flags = s.flags := by
  simp [pull8]
@[simp] theorem pull8_run (s : State) : ((pull8 s).2).run = s.run := by
  simp [pull8]
@[simp] theorem pull8_params (s : State) : ((pull8 s).2).params = s.params := by
  simp [pull8]
@[simp] theorem pull8_mem (s : State) : ((pull8 s).2).mem = s.mem := by
  simp [pull8]
@[simp] theorem pull8_out_cycles (s : State) : ((pull8 s).2).out.cycles = s.out.cycles := by
  simp [pull8]
@[simp] theorem pull8_out_outcomes (s : State) : ((pull8 s).2).out.outcomes = s.out.outcomes := by
  simp [pull8]
@[simp] theorem pull8_sp (s : State) : (pull8 s).2.sp = s.sp + 1#8 := by simp [pull8]

@[simp] theorem pull16_a (s : State) : ((pull16 s).2).a = s.a := by
  simp [pull16]
@[simp] theorem pull16_x (s : State) : ((pull16 s).2).x = s.x := by
  simp [pull16]
@[simp] theorem pull16_y (s : State) : ((pull16 s).2).y = s.y := by
  simp [pull16]
@[simp] theorem pull16_pc (s : State) : ((pull16 s).2).pc = s.pc := by
  simp [pull16]
@[simp] theorem pull16_flags (s : State) : ((pull16 s).2).flags = s.flags := by
  simp [pull16]
@[simp] theorem pull16_run (s : State) : ((pull16 s).2).run = s.run := by
  simp [pull16]
@[simp] theorem pull16_params (s : State) : ((pull16 s).2).params = s.params := by
  simp [pull16]
@[simp] theorem pull16_mem (s : State) : ((pull16 s).2).mem = s.mem := by
  simp [pull16]
@[simp] theorem pull16_out_cycles (s : State) : ((pull16 s).2).out.cycles = s.out.cycles := by
  simp [pull16]
@[simp] theorem pull16_out_outcomes (s : State) : ((pull16 s).2).out.outcomes = s.out.outcomes := by
  simp [pull16]
@[simp] theorem pull16_sp (s : State) : (pull16 s).2.sp = s.sp + 2#8 := by
  simp [pull16]; bv_omega


@[simp] theorem push8_linesKept (v : Byte) (s : State) : LinesKept s (push8 v s) :=
  (linesKept_setSp _ _ _).2 (memWrite_linesKept (stackAddr s.sp) v s)

@[simp] theorem push16_linesKept (w : Word) (s : State) : LinesKept s (push16 w s) :=
  linesKept_trans (by simp) (push8_linesKept (hi w) s) (push8_linesKept (lo w) _)

@[simp] theorem pull8_linesKept (s : State) : LinesKept s (pull8 s).2 :=
  (linesKept_setSp_left _ _ _).1 (memRead_linesKept (stackAddr (s.sp + 1#8)) (s.setSp (s.sp + 1#8)))

@[simp] theorem pull16_linesKept (s : State) : LinesKept s (pull16 s).2 :=
  linesKept_trans (by simp) (pull8_linesKept s) (pull8_linesKept _)

theorem push8_read (v : Byte) (s : State) (b : Word) :
    (push8 v s).mem.read b.toNat = if b = stackAddr s.sp ∧ plainRam s.params (stackAddr s.sp) then v else s.mem.read b.toNat := by
  simp only [push8, State.setSp_mem, memWrite_read]

theorem push8_wf (v : Byte) {s : State} (h : s.mem.wf = true) : (push8 v s).mem.wf = true := by
  simpa [push8] using memWrite_wf (stackAddr s.sp) v h

theorem push16_wf (w : Word) {s : State} (h : s.mem.wf = true) : (push16 w s).mem.wf = true :=
  push8_wf _ (push8_wf _ h)

theorem push8_accesses (v : Byte) (s : State) :
    accessesOf (push8 v s).out = accessesOf s.out ++ [.w (stackAddr s.sp)] := by
  simp [push8, accessesOf, accessAt]

theorem pull8_accesses (s : State) :
    accessesOf (pull8 s).2.out = accessesOf s.out ++ [.r (stackAddr (s.sp + 1#8))] := by
  simp [pull8, accessesOf, accessAt]

/-- A stack address lies in page one (R24). -/
theorem toNat_stackAddr (p : Byte) : (stackAddr p).toNat = 256 + p.toNat := by
  simp [stackAddr, toNat_word]

theorem stackAddr_inj {p q : Byte} : stackAddr p = stackAddr q ↔ p = q := by
  simp [stackAddr, word_inj]

/-- Reads do not look at the flags. -/
theorem memRead_setFlags (a : Word) (f : Flags) (s : State) :
    memRead a (s.setFlags f) = ((memRead a s).1, (memRead a s).2.setFlags f) := by
  have hp : (s.setFlags f).portByte a = s.portByte a := rfl
  unfold memRead
  rw [hp, State.setFlags_params]
  split <;> rfl

theorem pull8_setFlags (f : Flags) (s : State) : pull8 (s.setFlags f) = ((pull8 s).1, (pull8 s).2.setFlags f) :=
  memRead_setFlags (stackAddr (s.sp + 1#8)) f (s.setSp (s.sp + 1#8))

theorem pull16_setFlags (f : Flags) (s : State) : pull16 (s.setFlags f) = ((pull16 s).1, (pull16 s).2.setFlags f) := by
  simp only [pull16, pull8_setFlags]

/-! ## What a read depends on -/

theorem pull8_byte (s : State) : (pull8 s).1 = s.portByte (stackAddr (s.sp + 1#8)) := by
  simp [pull8, State.portByte]
  rfl

/-- A read looks at the parameters, memory and the draw counter only. -/
theorem portByte_congr {s t : State} (h1 : t.params = s.params) (h2 : t.mem = s.mem) (h3 : t.draws = s.draws) (a : Word) : t.portByte a = s.portByte a := by
  simp [State.portByte, h1, h2, h3]

theorem memRead_draws (a : Word) (s : State) : (memRead a s).2.draws = if plainRam s.params a then s.draws else s.draws + 1 := by
  unfold memRead; split <;> simp

theorem memWrite_draws (a : Word) (v : Byte) (s : State) : (memWrite a v s).draws = if plainRam s.params a then s.draws else s.draws + 1 := by
  unfold memWrite; split <;> simp

theorem readPair_congr {s t : State} (h1 : t.params = s.params) (h2 : t.mem = s.mem) (h3 : t.draws = s.draws) (a b : Word) : (readPair a b t).1 = (readPair a b s).1 := by
  simp only [readPair, memRead_byte]
  rw [portByte_congr h1 h2 h3 a, portByte_congr (s := (memRead a s).2) (by simpa using h1) (by simpa using h2) (by simp [memRead_draws, h1, h3]) b]

theorem push8_congr {s t : State} (h0 : t.sp = s.sp) (h1 : t.params = s.params) (h2 : t.mem = s.mem) (h3 : t.draws = s.draws) (v : Byte) :
   (push8 v t).sp = (push8 v s).sp ∧ (push8 v t).params = (push8 v s).params ∧ (push8 v t).mem = (push8 v s).mem ∧ (push8 v t).draws = (push8 v s).draws := by
  refine ⟨by simp [h0], by simp [h1], ?_, ?_⟩
  · simp [push8, memWrite_mem, h0, h1, h2]
  · simp [push8, memWrite_draws, h0, h1, h3]

/-! ## Taking an interrupt, and returning from one -/

@[simp] theorem takeInterrupt_a (ret : Word) (brk : Bool) (vec : Word) (s : State) : (takeInterrupt ret brk vec s).a = s.a := by
  simp [takeInterrupt]
@[simp] theorem takeInterrupt_x (ret : Word) (brk : Bool) (vec : Word) (s : State) : (takeInterrupt ret brk vec s).x = s.x := by
  simp [takeInterrupt]
@[simp] theorem takeInterrupt_y (ret : Word) (brk : Bool) (vec : Word) (s : State) : (takeInterrupt ret brk vec s).y = s.y := by
  simp [takeInterrupt]
@[simp] theorem takeInterrupt_run (ret : Word) (brk : Bool) (vec : Word) (s : State) : (takeInterrupt ret brk vec s).run = s.run := by
  simp [takeInterrupt]
@[simp] theorem takeInterrupt_params (ret : Word) (brk : Bool) (vec : Word) (s : State) : (takeInterrupt ret brk vec s).params = s.params := by
  simp [takeInterrupt]
@[simp] theorem takeInterrupt_out_cycles (ret : Word) (brk : Bool) (vec : Word) (s : State) : (takeInterrupt ret brk vec s).out.cycles = s.out.cycles := by
  simp [takeInterrupt]
@[simp] theorem takeInterrupt_out_outcomes (ret : Word) (brk : Bool) (vec : Word) (s : State) : (takeInterrupt ret brk vec s).out.outcomes = s.out.outcomes := by
  simp [takeInterrupt]
@[simp] theorem takeInterrupt_flags (ret : Word) (brk : Bool) (vec : Word) (s : State) : (takeInterrupt ret brk vec s).flags = { s.flags with i := true } := by
  simp [takeInterrupt]
@[simp] theorem takeInterrupt_sp (ret : Word) (brk : Bool) (vec : Word) (s : State) :
    (takeInterrupt ret brk vec s).sp = s.sp - 3#8 := by
  simp [takeInterrupt]; bv_omega

theorem takeInterrupt_mem (ret : Word) (brk : Bool) (vec : Word) (s : State) :
    (takeInterrupt ret brk vec s).mem = (push8 (statusByte brk s.flags) (push16 ret s)).mem := by
  simp [takeInterrupt]

@[simp] theorem takeInterrupt_linesKept (ret : Word) (brk : Bool) (vec : Word) (s : State) :
    LinesKept s (takeInterrupt ret brk vec s) := by
  simp only [takeInterrupt, linesKept_setPc]
  refine linesKept_trans (t := (push8 (statusByte brk (push16 ret s).flags) (push16 ret s)).setFlags _) (by simp) ?_
    (readWord_linesKept _ _)
  rw [linesKept_setFlags]
  refine linesKept_trans ?_ (push16_linesKept ret s) (push8_linesKept _ _)
  simp

theorem takeInterrupt_wf (ret : Word) (brk : Bool) (vec : Word) {s : State} (h : s.mem.wf = true) :
    (takeInterrupt ret brk vec s).mem.wf = true := by
  rw [takeInterrupt_mem]
  exact push8_wf _ (push16_wf _ h)

/-- The PC of the handler: the word at the vector, which the three pushes into page one cannot have changed. -/
theorem takeInterrupt_pc_plain (ret : Word) (brk : Bool) {vec : Word} {s : State} (hv : 512 ≤ vec.toNat)
    (hv' : vec.toNat < 65535) (h1 : plainRam s.params vec = true) (h2 : plainRam s.params (vec + 1#16) = true) :
    (takeInterrupt ret brk vec s).pc.toNat = wordIn s.mem vec (vec + 1#16) := by
  have key : ∀ (v : Byte) (t : State) (b : Word), 512 ≤ b.toNat → (push8 v t).mem.read b.toNat = t.mem.read b.toNat := by
    intro v t b hb
    rw [push8_read]
    have : b ≠ stackAddr t.sp := by
      intro e
      have := congrArg BitVec.toNat e
      rw [toNat_stackAddr] at this
      omega
    simp [this]
  simp only [takeInterrupt, State.setPc_pc, readWord]
  rw [readPair_plain (by simpa using h1) (by simpa using h2)]
  have hvec : 512 ≤ (vec + 1#16).toNat := by bv_omega
  simp only [wordIn, State.setFlags_mem, push16, key _ _ _ hv, key _ _ _ hvec]

/-- Everything that taking an interrupt does, for a vector outside pages zero and one (R242). -/
theorem takeInterrupt_taken (ret : Word) (brk : Bool) (vec : Word) (s : State) (hv : 512 ≤ vec.toNat)
    (hv' : vec.toNat < 65535) : InterruptTaken ret brk vec s (takeInterrupt ret brk vec s) := by
  have hne : ∀ p : Byte, p ≠ p - 1#8 := by decide
  have hne2 : ∀ p : Byte, p ≠ p - 2#8 := by decide
  have hne3 : ∀ p : Byte, p - 1#8 ≠ p - 2#8 := by decide
  have e : s.sp - 1#8 - 1#8 = s.sp - 2#8 := by bv_omega
  refine ⟨?_, ?_, ?_, ?_, by simp, by simp, ?_, fun h1 h2 => takeInterrupt_pc_plain ret brk hv hv' h1 h2, by simp, by simp, by simp, by simp [SameSystem]⟩
  · simp [Stored, takeInterrupt_mem, push16, push8_read, stackAddr_inj, hne, hne2, e]
  · simp [Stored, takeInterrupt_mem, push16, push8_read, stackAddr_inj, hne3, e, (hne _).symm]
  · simp [Stored, takeInterrupt_mem, push16, push8_read, stackAddr_inj, e]
  · intro a ha; simp at ha; simp [takeInterrupt_mem, push16, push8_read, ha, e]
  · simp [takeInterrupt]

/-- The interrupt is taken alike when other fields of the result change. -/
theorem interruptTaken_congr {ret : Word} {brk : Bool} {vec : Word} {s t t' : State} (h : InterruptTaken ret brk vec s t) (h1 : t'.mem = t.mem) (h2 : t'.sp = t.sp) (h3 : t'.flags = t.flags) (h4 : t'.pc = t.pc) (h5 : t'.a = t.a) (h6 : t'.x = t.x) (h7 : t'.y = t.y) (h8 : t'.run = t.run) (h9 : t'.params = t.params) : InterruptTaken ret brk vec s t' := by
  simp only [InterruptTaken, Stored, SameMemoryOutside, SameSystem, h1, h2, h3, h4, h5, h6, h7, h8, h9] at *
  exact h

theorem push3_congr {s u : State} (h0 : u.sp = s.sp) (h1 : u.params = s.params) (h2 : u.mem = s.mem) (h3 : u.draws = s.draws) (h4 : u.flags = s.flags) (ret : Word) (brk : Bool) (vec : Word) :
   (readWord vec ((push8 (statusByte brk u.flags) (push16 ret u)).setFlags { u.flags with i := true })).1 = (readWord vec ((push8 (statusByte brk s.flags) (push16 ret s)).setFlags { s.flags with i := true })).1 := by
  obtain ⟨c1, c2, c3, c4⟩ := push8_congr h0 h1 h2 h3 (hi ret)
  obtain ⟨c1, c2, c3, c4⟩ := push8_congr c1 c2 c3 c4 (lo ret)
  obtain ⟨c1, c2, c3, c4⟩ := push8_congr c1 c2 c3 c4 (statusByte brk s.flags)
  rw [h4]
  unfold readWord push16
  exact readPair_congr (by simpa using c2) (by simpa using c3) (by simpa using c4) vec (vec + 1#16)

/-- The interrupt is taken alike from states that differ in PC, the lines and the outputs only. -/
theorem interruptTaken_from {ret brk vec} {s u t : State} (ht : InterruptTaken ret brk vec u t) (h0 : u.sp = s.sp) (h1 : u.params = s.params) (h2 : u.mem = s.mem) (h3 : u.draws = s.draws) (h4 : u.flags = s.flags)
   (h5 : u.a = s.a) (h6 : u.x = s.x) (h7 : u.y = s.y) (h8 : u.run = s.run) : InterruptTaken ret brk vec s t := by
  unfold InterruptTaken at ht
  rw [push3_congr h0 h1 h2 h3 h4] at ht
  simp only [Stored, SameMemoryOutside, SameSystem, h0, h1, h2, h4, h5, h6, h7, h8] at ht
  unfold InterruptTaken
  simp only [Stored, SameMemoryOutside, SameSystem]
  exact ht

@[simp] theorem returnFromInterrupt_a (s : State) : (returnFromInterrupt s).a = s.a := by
  simp [returnFromInterrupt]
@[simp] theorem returnFromInterrupt_x (s : State) : (returnFromInterrupt s).x = s.x := by
  simp [returnFromInterrupt]
@[simp] theorem returnFromInterrupt_y (s : State) : (returnFromInterrupt s).y = s.y := by
  simp [returnFromInterrupt]
@[simp] theorem returnFromInterrupt_run (s : State) : (returnFromInterrupt s).run = s.run := by
  simp [returnFromInterrupt]
@[simp] theorem returnFromInterrupt_params (s : State) : (returnFromInterrupt s).params = s.params := by
  simp [returnFromInterrupt]
@[simp] theorem returnFromInterrupt_mem (s : State) : (returnFromInterrupt s).mem = s.mem := by
  simp [returnFromInterrupt]
@[simp] theorem returnFromInterrupt_out_cycles (s : State) : (returnFromInterrupt s).out.cycles = s.out.cycles := by
  simp [returnFromInterrupt]
@[simp] theorem returnFromInterrupt_out_outcomes (s : State) : (returnFromInterrupt s).out.outcomes = s.out.outcomes := by
  simp [returnFromInterrupt]
@[simp] theorem returnFromInterrupt_sp (s : State) : (returnFromInterrupt s).sp = s.sp + 3#8 := by
  simp [returnFromInterrupt]; bv_omega

theorem returnFromInterrupt_flags (s : State) :
    (returnFromInterrupt s).flags = loadStatus (s.portByte (stackAddr (s.sp + 1#8))) := by
  simp [returnFromInterrupt, pull8, State.portByte]
  rfl

@[simp] theorem returnFromInterrupt_linesKept (s : State) : LinesKept s (returnFromInterrupt s) := by
  simp only [returnFromInterrupt, linesKept_setPc]
  refine linesKept_trans (t := (pull8 s).2.setFlags _) (by simp) ?_ (pull16_linesKept _)
  rw [linesKept_setFlags]
  exact pull8_linesKept s

end Sys2Proof.Machine
end

