-- ==== Sys2Proof/Laws/Operands.lean ====
section
/-! SUPPORT. What the resolver and the operand reads can do: they leave every register, the flags, PC, memory and the outputs' cycles
and outcomes alone, make exactly the accesses of R115, and touch the interrupt lines only through hooks. -/

namespace Sys2Proof.Machine

open Sys2Proof.Safety

/-! ## The resolver -/

@[simp] theorem resolve_a (m : MemMode) (s : State) : (resolve m s).state.a = s.a := by
  cases m <;> simp [resolve, indexed]
@[simp] theorem resolve_x (m : MemMode) (s : State) : (resolve m s).state.x = s.x := by
  cases m <;> simp [resolve, indexed]
@[simp] theorem resolve_y (m : MemMode) (s : State) : (resolve m s).state.y = s.y := by
  cases m <;> simp [resolve, indexed]
@[simp] theorem resolve_sp (m : MemMode) (s : State) : (resolve m s).state.sp = s.sp := by
  cases m <;> simp [resolve, indexed]
@[simp] theorem resolve_pc (m : MemMode) (s : State) : (resolve m s).state.pc = s.pc := by
  cases m <;> simp [resolve, indexed]
@[simp] theorem resolve_flags (m : MemMode) (s : State) : (resolve m s).state.flags = s.flags := by
  cases m <;> simp [resolve, indexed]
@[simp] theorem resolve_run (m : MemMode) (s : State) : (resolve m s).state.run = s.run := by
  cases m <;> simp [resolve, indexed]
@[simp] theorem resolve_params (m : MemMode) (s : State) : (resolve m s).state.params = s.params := by
  cases m <;> simp [resolve, indexed]
@[simp] theorem resolve_mem (m : MemMode) (s : State) : (resolve m s).state.mem = s.mem := by
  cases m <;> simp [resolve, indexed]
@[simp] theorem resolve_out_cycles (m : MemMode) (s : State) : (resolve m s).state.out.cycles = s.out.cycles := by
  cases m <;> simp [resolve, indexed]
@[simp] theorem resolve_out_outcomes (m : MemMode) (s : State) : (resolve m s).state.out.outcomes = s.out.outcomes := by
  cases m <;> simp [resolve, indexed]

@[simp] theorem resolve_linesKept (m : MemMode) (s : State) : LinesKept s (resolve m s).state := by
  cases m with
  | indexedIndirect b => exact readWordZP_linesKept _ s
  | indirectIndexed b => exact readWordZP_linesKept _ s
  | zeroPage b => exact linesKept_refl s
  | zeroPageX b => exact linesKept_refl s
  | zeroPageY b => exact linesKept_refl s
  | absolute w => exact linesKept_refl s
  | absoluteX w => exact linesKept_refl s
  | absoluteY w => exact linesKept_refl s

theorem resolve_accesses (m : MemMode) (s : State) :
    accessesOf (resolve m s).state.out = accessesOf s.out ++ pointerAccesses m s := by
  cases m <;> simp [resolve, indexed, pointerAccesses, readWordZP, readPair_accesses, zeroPageAddr]

/-! ## Operand reads -/

@[simp] theorem readMem_a (m : MemMode) (s : State) : (readMem m s).state.a = s.a := by
  simp [readMem]
@[simp] theorem readMem_x (m : MemMode) (s : State) : (readMem m s).state.x = s.x := by
  simp [readMem]
@[simp] theorem readMem_y (m : MemMode) (s : State) : (readMem m s).state.y = s.y := by
  simp [readMem]
@[simp] theorem readMem_sp (m : MemMode) (s : State) : (readMem m s).state.sp = s.sp := by
  simp [readMem]
@[simp] theorem readMem_pc (m : MemMode) (s : State) : (readMem m s).state.pc = s.pc := by
  simp [readMem]
@[simp] theorem readMem_flags (m : MemMode) (s : State) : (readMem m s).state.flags = s.flags := by
  simp [readMem]
@[simp] theorem readMem_run (m : MemMode) (s : State) : (readMem m s).state.run = s.run := by
  simp [readMem]
@[simp] theorem readMem_params (m : MemMode) (s : State) : (readMem m s).state.params = s.params := by
  simp [readMem]
@[simp] theorem readMem_mem (m : MemMode) (s : State) : (readMem m s).state.mem = s.mem := by
  simp [readMem]
@[simp] theorem readMem_out_cycles (m : MemMode) (s : State) : (readMem m s).state.out.cycles = s.out.cycles := by
  simp [readMem]
@[simp] theorem readMem_out_outcomes (m : MemMode) (s : State) : (readMem m s).state.out.outcomes = s.out.outcomes := by
  simp [readMem]

@[simp] theorem readMem_crossed (m : MemMode) (s : State) : (readMem m s).crossed = (resolve m s).crossed := rfl

theorem readMem_byte (m : MemMode) (s : State) :
    (readMem m s).byte = (resolve m s).state.portByte (resolve m s).addr := rfl

/-- The byte that an operand read at a plain RAM address gives. -/
theorem readMem_byte_plain {m : MemMode} {s : State} (h : plainRam s.params (resolve m s).addr = true) :
    (readMem m s).byte = s.mem.read (resolve m s).addr.toNat := by
  rw [readMem_byte, portByte_plain (by simpa using h), resolve_mem]

@[simp] theorem readMem_linesKept (m : MemMode) (s : State) : LinesKept s (readMem m s).state :=
  linesKept_trans (by simp) (resolve_linesKept m s) (memRead_linesKept _ _)

theorem readMem_accesses (m : MemMode) (s : State) :
    accessesOf (readMem m s).state.out = accessesOf s.out ++ readAccesses m s := by
  have h := resolve_accesses m s
  simp only [readMem, accessesOf, memRead_accesses, List.map_append, readAccesses] at h ⊢
  rw [h]
  simp [accessAt]

@[simp] theorem readSource_a (src : Source) (s : State) : (readSource src s).state.a = s.a := by
  cases src <;> simp [readSource]
@[simp] theorem readSource_x (src : Source) (s : State) : (readSource src s).state.x = s.x := by
  cases src <;> simp [readSource]
@[simp] theorem readSource_y (src : Source) (s : State) : (readSource src s).state.y = s.y := by
  cases src <;> simp [readSource]
@[simp] theorem readSource_sp (src : Source) (s : State) : (readSource src s).state.sp = s.sp := by
  cases src <;> simp [readSource]
@[simp] theorem readSource_pc (src : Source) (s : State) : (readSource src s).state.pc = s.pc := by
  cases src <;> simp [readSource]
@[simp] theorem readSource_flags (src : Source) (s : State) : (readSource src s).state.flags = s.flags := by
  cases src <;> simp [readSource]
@[simp] theorem readSource_run (src : Source) (s : State) : (readSource src s).state.run = s.run := by
  cases src <;> simp [readSource]
@[simp] theorem readSource_params (src : Source) (s : State) : (readSource src s).state.params = s.params := by
  cases src <;> simp [readSource]
@[simp] theorem readSource_mem (src : Source) (s : State) : (readSource src s).state.mem = s.mem := by
  cases src <;> simp [readSource]
@[simp] theorem readSource_out_cycles (src : Source) (s : State) : (readSource src s).state.out.cycles = s.out.cycles := by
  cases src <;> simp [readSource]
@[simp] theorem readSource_out_outcomes (src : Source) (s : State) : (readSource src s).state.out.outcomes = s.out.outcomes := by
  cases src <;> simp [readSource]

@[simp] theorem readSource_linesKept (src : Source) (s : State) : LinesKept s (readSource src s).state := by
  cases src with
  | imm v => exact linesKept_refl s
  | mem m => exact readMem_linesKept m s

theorem readSource_accesses (src : Source) (s : State) :
    accessesOf (readSource src s).state.out = accessesOf s.out ++ sourceAccesses src s := by
  cases src with
  | imm v => simp [readSource, sourceAccesses]
  | mem m => exact readMem_accesses m s

/-! ## Jumps -/

@[simp] theorem resolveJump_a (j : JumpTarget) (s : State) : (resolveJump j s).2.a = s.a := by
  cases j <;> simp [resolveJump]
@[simp] theorem resolveJump_x (j : JumpTarget) (s : State) : (resolveJump j s).2.x = s.x := by
  cases j <;> simp [resolveJump]
@[simp] theorem resolveJump_y (j : JumpTarget) (s : State) : (resolveJump j s).2.y = s.y := by
  cases j <;> simp [resolveJump]
@[simp] theorem resolveJump_sp (j : JumpTarget) (s : State) : (resolveJump j s).2.sp = s.sp := by
  cases j <;> simp [resolveJump]
@[simp] theorem resolveJump_pc (j : JumpTarget) (s : State) : (resolveJump j s).2.pc = s.pc := by
  cases j <;> simp [resolveJump]
@[simp] theorem resolveJump_flags (j : JumpTarget) (s : State) : (resolveJump j s).2.flags = s.flags := by
  cases j <;> simp [resolveJump]
@[simp] theorem resolveJump_run (j : JumpTarget) (s : State) : (resolveJump j s).2.run = s.run := by
  cases j <;> simp [resolveJump]
@[simp] theorem resolveJump_params (j : JumpTarget) (s : State) : (resolveJump j s).2.params = s.params := by
  cases j <;> simp [resolveJump]
@[simp] theorem resolveJump_mem (j : JumpTarget) (s : State) : (resolveJump j s).2.mem = s.mem := by
  cases j <;> simp [resolveJump]
@[simp] theorem resolveJump_out_cycles (j : JumpTarget) (s : State) : (resolveJump j s).2.out.cycles = s.out.cycles := by
  cases j <;> simp [resolveJump]
@[simp] theorem resolveJump_out_outcomes (j : JumpTarget) (s : State) : (resolveJump j s).2.out.outcomes = s.out.outcomes := by
  cases j <;> simp [resolveJump]

@[simp] theorem resolveJump_linesKept (j : JumpTarget) (s : State) : LinesKept s (resolveJump j s).2 := by
  cases j with
  | absolute w => exact linesKept_refl s
  | indirect w => exact readWordPageWrap_linesKept w s

end Sys2Proof.Machine
end

