-- ==== Sys2Proof/Laws/Exec.lean ====
section
/-! SUPPORT. What the shapes of the instruction part can do: ending an instruction, a store, a read-modify-write, a shift and a branch,
one lemma per field and one for the stored byte, the interrupt lines and the accesses. -/

namespace Sys2Proof.Machine

open Sys2Proof.Safety

/-! ## Ending an instruction -/

@[simp] theorem retire_a (i : Instr) (crossed : Bool) (s : State) : (retire i crossed s).a = s.a := rfl
@[simp] theorem retire_x (i : Instr) (crossed : Bool) (s : State) : (retire i crossed s).x = s.x := rfl
@[simp] theorem retire_y (i : Instr) (crossed : Bool) (s : State) : (retire i crossed s).y = s.y := rfl
@[simp] theorem retire_sp (i : Instr) (crossed : Bool) (s : State) : (retire i crossed s).sp = s.sp := rfl
@[simp] theorem retire_flags (i : Instr) (crossed : Bool) (s : State) : (retire i crossed s).flags = s.flags := rfl
@[simp] theorem retire_run (i : Instr) (crossed : Bool) (s : State) : (retire i crossed s).run = s.run := rfl
@[simp] theorem retire_lines (i : Instr) (crossed : Bool) (s : State) : (retire i crossed s).lines = s.lines := rfl
@[simp] theorem retire_params (i : Instr) (crossed : Bool) (s : State) : (retire i crossed s).params = s.params := rfl
@[simp] theorem retire_mem (i : Instr) (crossed : Bool) (s : State) : (retire i crossed s).mem = s.mem := rfl
@[simp] theorem retire_draws (i : Instr) (crossed : Bool) (s : State) : (retire i crossed s).draws = s.draws := rfl
@[simp] theorem retire_out_outcomes (i : Instr) (crossed : Bool) (s : State) : (retire i crossed s).out.outcomes = s.out.outcomes := rfl
@[simp] theorem retire_out_accesses (i : Instr) (crossed : Bool) (s : State) : (retire i crossed s).out.accesses = s.out.accesses := rfl
@[simp] theorem retire_pc (i : Instr) (crossed : Bool) (s : State) : (retire i crossed s).pc = nextPc i s := rfl
@[simp] theorem retire_out_cycles (i : Instr) (crossed : Bool) (s : State) :
    (retire i crossed s).out.cycles = s.out.cycles + (minCycles i + crossCycles i crossed) := rfl

@[simp] theorem linesKept_retire (i : Instr) (crossed : Bool) (s t : State) :
    LinesKept s (retire i crossed t) ↔ LinesKept s t :=
  ⟨fun h => ⟨h.plain, h.hooks⟩, fun h => ⟨h.plain, h.hooks⟩⟩

@[simp] theorem retireTo_a (i : Instr) (w : Word) (n : Nat) (s : State) : (retireTo i w n s).a = s.a := rfl
@[simp] theorem retireTo_x (i : Instr) (w : Word) (n : Nat) (s : State) : (retireTo i w n s).x = s.x := rfl
@[simp] theorem retireTo_y (i : Instr) (w : Word) (n : Nat) (s : State) : (retireTo i w n s).y = s.y := rfl
@[simp] theorem retireTo_sp (i : Instr) (w : Word) (n : Nat) (s : State) : (retireTo i w n s).sp = s.sp := rfl
@[simp] theorem retireTo_flags (i : Instr) (w : Word) (n : Nat) (s : State) : (retireTo i w n s).flags = s.flags := rfl
@[simp] theorem retireTo_run (i : Instr) (w : Word) (n : Nat) (s : State) : (retireTo i w n s).run = s.run := rfl
@[simp] theorem retireTo_lines (i : Instr) (w : Word) (n : Nat) (s : State) : (retireTo i w n s).lines = s.lines := rfl
@[simp] theorem retireTo_params (i : Instr) (w : Word) (n : Nat) (s : State) : (retireTo i w n s).params = s.params := rfl
@[simp] theorem retireTo_mem (i : Instr) (w : Word) (n : Nat) (s : State) : (retireTo i w n s).mem = s.mem := rfl
@[simp] theorem retireTo_draws (i : Instr) (w : Word) (n : Nat) (s : State) : (retireTo i w n s).draws = s.draws := rfl
@[simp] theorem retireTo_out_outcomes (i : Instr) (w : Word) (n : Nat) (s : State) : (retireTo i w n s).out.outcomes = s.out.outcomes := rfl
@[simp] theorem retireTo_out_accesses (i : Instr) (w : Word) (n : Nat) (s : State) : (retireTo i w n s).out.accesses = s.out.accesses := rfl
@[simp] theorem retireTo_pc (i : Instr) (w : Word) (n : Nat) (s : State) : (retireTo i w n s).pc = w := rfl
@[simp] theorem retireTo_out_cycles (i : Instr) (w : Word) (n : Nat) (s : State) :
    (retireTo i w n s).out.cycles = s.out.cycles + (minCycles i + n) := rfl

@[simp] theorem linesKept_retireTo (i : Instr) (w : Word) (n : Nat) (s t : State) :
    LinesKept s (retireTo i w n t) ↔ LinesKept s t :=
  ⟨fun h => ⟨h.plain, h.hooks⟩, fun h => ⟨h.plain, h.hooks⟩⟩

/-- `NEXT` as a number (R13). -/
theorem toNat_nextPc (i : Instr) (s : State) : (nextPc i s).toNat = (s.pc.toNat + i.size) % 65536 := by
  simp [nextPc]

theorem nextPc_congr {i : Instr} {s t : State} (h : t.pc = s.pc) : nextPc i t = nextPc i s := by
  simp [nextPc, h]

/-- The cycle numbers that an instruction's row can give (R282). -/
theorem minCycles_le (i : Instr) : minCycles i ≤ 7 := by
  unfold minCycles
  cases h : i.row with
  | none => simp
  | some r =>
    unfold Instr.row at h
    split at h
    · exact (opcodeTable_rows r (rowOfForm_mem h)).2.2.1
    · cases h

theorem minCycles_add_crossCycles_le (i : Instr) (crossed : Bool) : minCycles i + crossCycles i crossed ≤ 7 := by
  unfold minCycles crossCycles
  cases h : i.row with
  | none => simp
  | some r =>
    unfold Instr.row at h
    split at h
    · have hr := opcodeTable_rows r (rowOfForm_mem h)
      cases hc : r.crossCycle
      · simpa [hc] using hr.2.2.1
      · have := hr.2.2.2.1 hc
        cases crossed <;> simp [hc] <;> omega
    · cases h

/-! ## A store -/

@[simp] theorem storeByte_a (i : Instr) (m : MemMode) (v : Byte) (s : State) : (storeByte i m v s).a = s.a := by
  simp [storeByte]
@[simp] theorem storeByte_x (i : Instr) (m : MemMode) (v : Byte) (s : State) : (storeByte i m v s).x = s.x := by
  simp [storeByte]
@[simp] theorem storeByte_y (i : Instr) (m : MemMode) (v : Byte) (s : State) : (storeByte i m v s).y = s.y := by
  simp [storeByte]
@[simp] theorem storeByte_sp (i : Instr) (m : MemMode) (v : Byte) (s : State) : (storeByte i m v s).sp = s.sp := by
  simp [storeByte]
@[simp] theorem storeByte_flags (i : Instr) (m : MemMode) (v : Byte) (s : State) : (storeByte i m v s).flags = s.flags := by
  simp [storeByte]
@[simp] theorem storeByte_run (i : Instr) (m : MemMode) (v : Byte) (s : State) : (storeByte i m v s).run = s.run := by
  simp [storeByte]
@[simp] theorem storeByte_params (i : Instr) (m : MemMode) (v : Byte) (s : State) : (storeByte i m v s).params = s.params := by
  simp [storeByte]
@[simp] theorem storeByte_out_outcomes (i : Instr) (m : MemMode) (v : Byte) (s : State) : (storeByte i m v s).out.outcomes = s.out.outcomes := by
  simp [storeByte]

theorem storeByte_pc (i : Instr) (m : MemMode) (v : Byte) (s : State) : (storeByte i m v s).pc = nextPc i s := by
  simp [storeByte, nextPc]

theorem storeByte_out_cycles (i : Instr) (m : MemMode) (v : Byte) (s : State) :
    (storeByte i m v s).out.cycles = s.out.cycles + (minCycles i + crossCycles i (resolve m s).crossed) := by
  simp [storeByte]

theorem storeByte_read (i : Instr) (m : MemMode) (v : Byte) (s : State) (b : Word) :
    (storeByte i m v s).mem.read b.toNat =
      if b = (resolve m s).addr ∧ plainRam s.params (resolve m s).addr then v else s.mem.read b.toNat := by
  simp [storeByte, memWrite_read]

theorem storeByte_wf (i : Instr) (m : MemMode) (v : Byte) {s : State} (h : s.mem.wf = true) :
    (storeByte i m v s).mem.wf = true := by
  simpa [storeByte] using memWrite_wf (resolve m s).addr v (s := (resolve m s).state) (by simpa using h)

@[simp] theorem storeByte_linesKept (i : Instr) (m : MemMode) (v : Byte) (s : State) : LinesKept s (storeByte i m v s) := by
  simp only [storeByte, linesKept_retire]
  refine linesKept_trans ?_ (resolve_linesKept m s) (memWrite_linesKept _ _ _)
  simp

theorem storeByte_accesses (i : Instr) (m : MemMode) (v : Byte) (s : State) :
    accessesOf (storeByte i m v s).out = accessesOf s.out ++ storeAccesses m s := by
  have h := resolve_accesses m s
  simp only [storeByte, accessesOf, retire_out_accesses, memWrite_accesses, List.map_append, storeAccesses] at h ⊢
  rw [h]
  simp [accessAt]

/-! ## A read-modify-write -/

@[simp] theorem modifyByte_a (i : Instr) (m : MemMode) (f : Byte → Byte) (g : Flags → Byte → Flags) (s : State) : (modifyByte i m f g s).a = s.a := by
  simp [modifyByte]
@[simp] theorem modifyByte_x (i : Instr) (m : MemMode) (f : Byte → Byte) (g : Flags → Byte → Flags) (s : State) : (modifyByte i m f g s).x = s.x := by
  simp [modifyByte]
@[simp] theorem modifyByte_y (i : Instr) (m : MemMode) (f : Byte → Byte) (g : Flags → Byte → Flags) (s : State) : (modifyByte i m f g s).y = s.y := by
  simp [modifyByte]
@[simp] theorem modifyByte_sp (i : Instr) (m : MemMode) (f : Byte → Byte) (g : Flags → Byte → Flags) (s : State) : (modifyByte i m f g s).sp = s.sp := by
  simp [modifyByte]
@[simp] theorem modifyByte_run (i : Instr) (m : MemMode) (f : Byte → Byte) (g : Flags → Byte → Flags) (s : State) : (modifyByte i m f g s).run = s.run := by
  simp [modifyByte]
@[simp] theorem modifyByte_params (i : Instr) (m : MemMode) (f : Byte → Byte) (g : Flags → Byte → Flags) (s : State) : (modifyByte i m f g s).params = s.params := by
  simp [modifyByte]
@[simp] theorem modifyByte_out_outcomes (i : Instr) (m : MemMode) (f : Byte → Byte) (g : Flags → Byte → Flags) (s : State) : (modifyByte i m f g s).out.outcomes = s.out.outcomes := by
  simp [modifyByte]

theorem modifyByte_flags (i : Instr) (m : MemMode) (f : Byte → Byte) (g : Flags → Byte → Flags) (s : State) : (modifyByte i m f g s).flags = g s.flags (readMem m s).byte := by
  simp [modifyByte, readMem]

theorem modifyByte_pc (i : Instr) (m : MemMode) (f : Byte → Byte) (g : Flags → Byte → Flags) (s : State) : (modifyByte i m f g s).pc = nextPc i s := by
  simp [modifyByte, nextPc]

theorem modifyByte_out_cycles (i : Instr) (m : MemMode) (f : Byte → Byte) (g : Flags → Byte → Flags) (s : State) :
    (modifyByte i m f g s).out.cycles = s.out.cycles + (minCycles i + crossCycles i (resolve m s).crossed) := by
  simp [modifyByte]

theorem modifyByte_read (i : Instr) (m : MemMode) (f : Byte → Byte) (g : Flags → Byte → Flags) (s : State) (b : Word) :
    (modifyByte i m f g s).mem.read b.toNat =
      if b = (resolve m s).addr ∧ plainRam s.params (resolve m s).addr then f (readMem m s).byte else s.mem.read b.toNat := by
  simp [modifyByte, memWrite_read, readMem]

theorem modifyByte_wf (i : Instr) (m : MemMode) (f : Byte → Byte) (g : Flags → Byte → Flags) {s : State}
    (h : s.mem.wf = true) : (modifyByte i m f g s).mem.wf = true := by
  have e : (modifyByte i m f g s).mem = (memWrite (resolve m s).addr (f (readMem m s).byte) (readMem m s).state).mem := by
    simp [modifyByte, readMem]
  rw [e]
  exact memWrite_wf _ _ (by simpa using h)

@[simp] theorem modifyByte_linesKept (i : Instr) (m : MemMode) (f : Byte → Byte) (g : Flags → Byte → Flags) (s : State) : LinesKept s (modifyByte i m f g s) := by
  simp only [modifyByte, linesKept_retire, linesKept_setFlags]
  have h := readMem_linesKept m s
  simp only [readMem] at h
  refine linesKept_trans ?_ h (memWrite_linesKept _ _ _)
  simp

theorem modifyByte_accesses (i : Instr) (m : MemMode) (f : Byte → Byte) (g : Flags → Byte → Flags) (s : State) :
    accessesOf (modifyByte i m f g s).out = accessesOf s.out ++ modifyAccesses m s := by
  have h := resolve_accesses m s
  simp only [modifyByte, accessesOf, retire_out_accesses, State.setFlags_out, memWrite_accesses, memRead_accesses,
    List.map_append, modifyAccesses] at h ⊢
  rw [h]
  simp [accessAt]

/-! ## A shift -/

@[simp] theorem shiftTarget_x (i : Instr) (t : Target) (f : Byte → Shifted) (s : State) : (shiftTarget i t f s).x = s.x := by
  cases t <;> simp [shiftTarget]
@[simp] theorem shiftTarget_y (i : Instr) (t : Target) (f : Byte → Shifted) (s : State) : (shiftTarget i t f s).y = s.y := by
  cases t <;> simp [shiftTarget]
@[simp] theorem shiftTarget_sp (i : Instr) (t : Target) (f : Byte → Shifted) (s : State) : (shiftTarget i t f s).sp = s.sp := by
  cases t <;> simp [shiftTarget]
@[simp] theorem shiftTarget_run (i : Instr) (t : Target) (f : Byte → Shifted) (s : State) : (shiftTarget i t f s).run = s.run := by
  cases t <;> simp [shiftTarget]
@[simp] theorem shiftTarget_params (i : Instr) (t : Target) (f : Byte → Shifted) (s : State) : (shiftTarget i t f s).params = s.params := by
  cases t <;> simp [shiftTarget]
@[simp] theorem shiftTarget_out_outcomes (i : Instr) (t : Target) (f : Byte → Shifted) (s : State) : (shiftTarget i t f s).out.outcomes = s.out.outcomes := by
  cases t <;> simp [shiftTarget]

theorem shiftTarget_wf (i : Instr) (t : Target) (f : Byte → Shifted) {s : State} (h : s.mem.wf = true) :
    (shiftTarget i t f s).mem.wf = true := by
  cases t with
  | acc => simpa [shiftTarget] using h
  | mem m =>
    simp only [shiftTarget]
    exact modifyByte_wf _ _ _ _ h

@[simp] theorem shiftTarget_linesKept (i : Instr) (t : Target) (f : Byte → Shifted) (s : State) : LinesKept s (shiftTarget i t f s) := by
  cases t with
  | acc => simp [shiftTarget]
  | mem m => exact modifyByte_linesKept i m (fun v => (f v).byte) (fun g v => g.setShift (f v)) s

theorem shiftTarget_accesses (i : Instr) (t : Target) (f : Byte → Shifted) (s : State) :
    accessesOf (shiftTarget i t f s).out = accessesOf s.out ++ targetAccesses t s := by
  cases t with
  | acc => simp [shiftTarget, targetAccesses, accessesOf]
  | mem m =>
    simp only [shiftTarget]
    exact modifyByte_accesses _ _ _ _ s

/-! ## A branch -/

@[simp] theorem branchIf_a (i : Instr) (cond : Bool) (d : Byte) (s : State) : (branchIf i cond d s).a = s.a := by
  cases cond <;> rfl
@[simp] theorem branchIf_x (i : Instr) (cond : Bool) (d : Byte) (s : State) : (branchIf i cond d s).x = s.x := by
  cases cond <;> rfl
@[simp] theorem branchIf_y (i : Instr) (cond : Bool) (d : Byte) (s : State) : (branchIf i cond d s).y = s.y := by
  cases cond <;> rfl
@[simp] theorem branchIf_sp (i : Instr) (cond : Bool) (d : Byte) (s : State) : (branchIf i cond d s).sp = s.sp := by
  cases cond <;> rfl
@[simp] theorem branchIf_flags (i : Instr) (cond : Bool) (d : Byte) (s : State) : (branchIf i cond d s).flags = s.flags := by
  cases cond <;> rfl
@[simp] theorem branchIf_run (i : Instr) (cond : Bool) (d : Byte) (s : State) : (branchIf i cond d s).run = s.run := by
  cases cond <;> rfl
@[simp] theorem branchIf_lines (i : Instr) (cond : Bool) (d : Byte) (s : State) : (branchIf i cond d s).lines = s.lines := by
  cases cond <;> rfl
@[simp] theorem branchIf_params (i : Instr) (cond : Bool) (d : Byte) (s : State) : (branchIf i cond d s).params = s.params := by
  cases cond <;> rfl
@[simp] theorem branchIf_mem (i : Instr) (cond : Bool) (d : Byte) (s : State) : (branchIf i cond d s).mem = s.mem := by
  cases cond <;> rfl
@[simp] theorem branchIf_draws (i : Instr) (cond : Bool) (d : Byte) (s : State) : (branchIf i cond d s).draws = s.draws := by
  cases cond <;> rfl
@[simp] theorem branchIf_out_outcomes (i : Instr) (cond : Bool) (d : Byte) (s : State) : (branchIf i cond d s).out.outcomes = s.out.outcomes := by
  cases cond <;> rfl
@[simp] theorem branchIf_out_accesses (i : Instr) (cond : Bool) (d : Byte) (s : State) : (branchIf i cond d s).out.accesses = s.out.accesses := by
  cases cond <;> rfl

@[simp] theorem branchIf_linesKept (i : Instr) (cond : Bool) (d : Byte) (s : State) : LinesKept s (branchIf i cond d s) :=
  ⟨fun _ => ⟨by simp, by simp⟩, 0, by simp, by simp [afterHooks]⟩

theorem branchCrossed_toNat_le (pc : Word) (d : Byte) : (branchCrossed pc d).toNat ≤ 1 := by
  cases branchCrossed pc d <;> simp

end Sys2Proof.Machine
end

