-- ==== Sys2Proof/Laws/Flags.lean ====
section
/-! SUPPORT. What the flag computations give, on numbers: the adder, its overflow, and decimal addition. -/

namespace Sys2Proof.Machine

open Sys2Proof.Safety

/-- Bit 7 of a byte as a comparison. -/
theorem getLsbD_seven : ∀ v : Byte, v.getLsbD 7 = decide (v.toNat ≥ 128) := by decide

/-- The binary adder: result and carry are the exact sum, Z and N those of the result (R156). -/
theorem addBin_sum : ∀ (a m : Byte) (c : Bool), 
   (addBin a m c).byte.toNat + 256 * (addBin a m c).c.toNat = a.toNat + m.toNat + c.toNat ∧
   (addBin a m c).z = decide ((addBin a m c).byte.toNat = 0) ∧ (addBin a m c).n = decide ((addBin a m c).byte.toNat ≥ 128) := by
  intro a m c
  have h1 : ∀ v : Byte, (v == 0#8) = decide (v.toNat = 0) := by decide
  have h2 : ∀ v : Byte, v.getLsbD 7 = decide (v.toNat ≥ 128) := by decide
  refine ⟨?_, h1 _, h2 _⟩
  simp [addBin]
  have := a.isLt; have := m.isLt; have := c.toNat_le
  by_cases h : 255 < a.toNat + m.toNat + c.toNat <;> simp [h] <;> omega

/-- The binary adder's overflow as a range (R156). -/
theorem addBin_overflow : ∀ (a m : Byte) (c : Bool), ((addBin a m c).v = true ↔ a.toInt + m.toInt + c.toNat < -128 ∨ 127 < a.toInt + m.toInt + c.toNat) := by
  intro a m c
  have key : ∀ x y r : Byte, signedOverflow x y r = (((x.getLsbD 7) ^^ (r.getLsbD 7)) && ((y.getLsbD 7) ^^ (r.getLsbD 7))) := by
    intro x y r
    simp only [signedOverflow]
    have : ∀ v : Byte, (v &&& 0x80#8 != 0#8) = v.getLsbD 7 := by decide
    rw [this]; simp
  have h2 : ∀ v : Byte, v.getLsbD 7 = decide (v.toNat ≥ 128) := by decide
  simp only [addBin, key, h2]
  have h : ∀ b : Byte, b.toInt = if b.toNat ≥ 128 then (b.toNat : Int) - 256 else b.toNat := by decide
  rw [h a, h m]
  have ha : a.toNat < 256 := a.isLt
  have hm : m.toNat < 256 := m.isLt
  have := c.toNat_le
  simp only [BitVec.toNat_ofNat]
  by_cases h1 : a.toNat ≥ 128 <;> by_cases h2 : m.toNat ≥ 128 <;> by_cases h3 : (a.toNat + m.toNat + c.toNat) % 2^8 ≥ 128 <;> simp [h1, h2] <;> omega

/-- The overflow formula by sign bits (R156). -/
theorem signedOverflow_eq (x y r : Byte) : signedOverflow x y r = (decide (x.toNat / 128 = y.toNat / 128) && decide (x.toNat / 128 ≠ r.toNat / 128)) := by
  have key : signedOverflow x y r = (((x.getLsbD 7) ^^ (r.getLsbD 7)) && ((y.getLsbD 7) ^^ (r.getLsbD 7))) := by
    simp only [signedOverflow]
    have : ∀ v : Byte, (v &&& 0x80#8 != 0#8) = v.getLsbD 7 := by decide
    rw [this]; simp
  have h2 : ∀ v : Byte, v.getLsbD 7 = decide (v.toNat / 128 = 1) := by decide
  rw [key, h2, h2, h2]
  have := x.isLt; have := y.isLt; have := r.isLt
  have e1 : x.toNat / 128 = 0 ∨ x.toNat / 128 = 1 := by omega
  have e2 : y.toNat / 128 = 0 ∨ y.toNat / 128 = 1 := by omega
  have e3 : r.toNat / 128 = 0 ∨ r.toNat / 128 = 1 := by omega
  rcases e1 with e1 | e1 <;> rcases e2 with e2 | e2 <;> rcases e3 with e3 | e3 <;> simp [e1, e2, e3]

/-- Decimal addition on numbers (R160). -/
theorem adcDecimal_spec (a m : Byte) (c : Bool) : (adcDecimal a m c).byte.toNat = adcFinal a.toNat m.toNat c.toNat % 256 ∧
   (adcDecimal a m c).c = decide (adcFinal a.toNat m.toNat c.toNat ≥ 256) ∧
   (adcDecimal a m c).n = decide (adcSum a.toNat m.toNat c.toNat % 256 ≥ 128) ∧
   (adcDecimal a m c).v = (decide (a.toNat / 128 = m.toNat / 128) && decide (a.toNat / 128 ≠ adcSum a.toNat m.toNat c.toNat % 256 / 128)) ∧
   (adcDecimal a m c).z = decide ((a.toNat + m.toNat + c.toNat) % 256 = 0) := by
  have h2 : ∀ v : Byte, v.getLsbD 7 = decide (v.toNat ≥ 128) := by decide
  have hs : a.toNat / 16 * 16 + m.toNat / 16 * 16 + adcLowDigit a m c = adcSum a.toNat m.toNat c.toNat := rfl
  simp only [adcDecimal, hs, signedOverflow_eq, h2, BitVec.toNat_ofNat]
  refine ⟨rfl, rfl, trivial, trivial, ?_⟩
  rw [Bool.eq_iff_iff]; simp

end Sys2Proof.Machine
end

