-- ==== Sys2Proof/Laws/PerInstr.lean ====
section
/-! SUPPORT. The statements made for every instruction, one lemma a constructor: `EncodedLength`, the number of bytes of a
well-formed instruction's encoding is the size its mode gives it (`spec/30_encoding.md` R80, R83). -/

/-- The encoding of a well-formed instruction is as many bytes as its size. -/
def Sys2Proof.Laws.EncodedLength.Statement (i : Sys2Proof.Instr) : Prop :=
  i.wellFormed = true → (Sys2Proof.encode i).length = i.size

namespace Sys2Proof.Laws.EncodedLength

open Sys2Proof

/-- An instruction with a mnemonic: the opcode byte and the operand bytes of its row. -/
theorem of_mnemonic {i : Instr} (hm : i.mnemonic ≠ none) : Statement i := by
  intro h
  obtain ⟨r, hr⟩ := wellFormed_row i h hm
  simp [encode_row hr, i.operandBytes_length]

theorem lda (src : Source) : Statement (.lda src) := of_mnemonic (by simp [Instr.mnemonic])
theorem ldx (src : Source) : Statement (.ldx src) := of_mnemonic (by simp [Instr.mnemonic])
theorem ldy (src : Source) : Statement (.ldy src) := of_mnemonic (by simp [Instr.mnemonic])
theorem sta (m : MemMode) : Statement (.sta m) := of_mnemonic (by simp [Instr.mnemonic])
theorem stx (m : MemMode) : Statement (.stx m) := of_mnemonic (by simp [Instr.mnemonic])
theorem sty (m : MemMode) : Statement (.sty m) := of_mnemonic (by simp [Instr.mnemonic])
theorem tax : Statement (.tax) := of_mnemonic (by simp [Instr.mnemonic])
theorem tay : Statement (.tay) := of_mnemonic (by simp [Instr.mnemonic])
theorem txa : Statement (.txa) := of_mnemonic (by simp [Instr.mnemonic])
theorem tya : Statement (.tya) := of_mnemonic (by simp [Instr.mnemonic])
theorem tsx : Statement (.tsx) := of_mnemonic (by simp [Instr.mnemonic])
theorem txs : Statement (.txs) := of_mnemonic (by simp [Instr.mnemonic])
theorem pha : Statement (.pha) := of_mnemonic (by simp [Instr.mnemonic])
theorem php : Statement (.php) := of_mnemonic (by simp [Instr.mnemonic])
theorem pla : Statement (.pla) := of_mnemonic (by simp [Instr.mnemonic])
theorem plp : Statement (.plp) := of_mnemonic (by simp [Instr.mnemonic])
theorem and (src : Source) : Statement (.and src) := of_mnemonic (by simp [Instr.mnemonic])
theorem ora (src : Source) : Statement (.ora src) := of_mnemonic (by simp [Instr.mnemonic])
theorem eor (src : Source) : Statement (.eor src) := of_mnemonic (by simp [Instr.mnemonic])
theorem bit (m : MemMode) : Statement (.bit m) := of_mnemonic (by simp [Instr.mnemonic])
theorem adc (src : Source) : Statement (.adc src) := of_mnemonic (by simp [Instr.mnemonic])
theorem sbc (src : Source) : Statement (.sbc src) := of_mnemonic (by simp [Instr.mnemonic])
theorem cmp (src : Source) : Statement (.cmp src) := of_mnemonic (by simp [Instr.mnemonic])
theorem cpx (src : Source) : Statement (.cpx src) := of_mnemonic (by simp [Instr.mnemonic])
theorem cpy (src : Source) : Statement (.cpy src) := of_mnemonic (by simp [Instr.mnemonic])
theorem inc (m : MemMode) : Statement (.inc m) := of_mnemonic (by simp [Instr.mnemonic])
theorem dec (m : MemMode) : Statement (.dec m) := of_mnemonic (by simp [Instr.mnemonic])
theorem inx : Statement (.inx) := of_mnemonic (by simp [Instr.mnemonic])
theorem iny : Statement (.iny) := of_mnemonic (by simp [Instr.mnemonic])
theorem dex : Statement (.dex) := of_mnemonic (by simp [Instr.mnemonic])
theorem dey : Statement (.dey) := of_mnemonic (by simp [Instr.mnemonic])
theorem asl (t : Target) : Statement (.asl t) := of_mnemonic (by simp [Instr.mnemonic])
theorem lsr (t : Target) : Statement (.lsr t) := of_mnemonic (by simp [Instr.mnemonic])
theorem rol (t : Target) : Statement (.rol t) := of_mnemonic (by simp [Instr.mnemonic])
theorem ror (t : Target) : Statement (.ror t) := of_mnemonic (by simp [Instr.mnemonic])
theorem jmp (j : JumpTarget) : Statement (.jmp j) := of_mnemonic (by simp [Instr.mnemonic])
theorem jsr (w : Word) : Statement (.jsr w) := of_mnemonic (by simp [Instr.mnemonic])
theorem rts : Statement (.rts) := of_mnemonic (by simp [Instr.mnemonic])
theorem rti : Statement (.rti) := of_mnemonic (by simp [Instr.mnemonic])
theorem brk : Statement (.brk) := of_mnemonic (by simp [Instr.mnemonic])
theorem bpl (d : Byte) : Statement (.bpl d) := of_mnemonic (by simp [Instr.mnemonic])
theorem bmi (d : Byte) : Statement (.bmi d) := of_mnemonic (by simp [Instr.mnemonic])
theorem bvc (d : Byte) : Statement (.bvc d) := of_mnemonic (by simp [Instr.mnemonic])
theorem bvs (d : Byte) : Statement (.bvs d) := of_mnemonic (by simp [Instr.mnemonic])
theorem bcc (d : Byte) : Statement (.bcc d) := of_mnemonic (by simp [Instr.mnemonic])
theorem bcs (d : Byte) : Statement (.bcs d) := of_mnemonic (by simp [Instr.mnemonic])
theorem bne (d : Byte) : Statement (.bne d) := of_mnemonic (by simp [Instr.mnemonic])
theorem beq (d : Byte) : Statement (.beq d) := of_mnemonic (by simp [Instr.mnemonic])
theorem clc : Statement (.clc) := of_mnemonic (by simp [Instr.mnemonic])
theorem sec : Statement (.sec) := of_mnemonic (by simp [Instr.mnemonic])
theorem cli : Statement (.cli) := of_mnemonic (by simp [Instr.mnemonic])
theorem sei : Statement (.sei) := of_mnemonic (by simp [Instr.mnemonic])
theorem clv : Statement (.clv) := of_mnemonic (by simp [Instr.mnemonic])
theorem cld : Statement (.cld) := of_mnemonic (by simp [Instr.mnemonic])
theorem sed : Statement (.sed) := of_mnemonic (by simp [Instr.mnemonic])
theorem nop : Statement (.nop) := of_mnemonic (by simp [Instr.mnemonic])
theorem unknown (op : Byte) : Statement (.unknown op) := by
  intro h
  have : op ∈ unknownOpcodes := by simpa [Instr.wellFormed] using h
  simp [encode, (rowOfByte_none op).2 this, Instr.size, Instr.mode, Mode.size]

end Sys2Proof.Laws.EncodedLength
end

