-- ==== Sys2Proof/Laws/Step.lean ====
section
/-! SUPPORT. What the parts of a step and the environment's operations can do: the fetch, the instruction part, the boundary evaluation,
a reset and a bulk store, one lemma per field, and the lemma that says once what a step is made of. -/

namespace Sys2Proof.Machine

open Sys2Proof.Safety

/-! ## The fetch -/

@[simp] theorem fetchOperand_a (size k : Nat) (pc : Word) (s : State) : ((fetchOperand size k pc s).2).a = s.a := by
  unfold fetchOperand; split <;> simp
@[simp] theorem fetchOperand_x (size k : Nat) (pc : Word) (s : State) : ((fetchOperand size k pc s).2).x = s.x := by
  unfold fetchOperand; split <;> simp
@[simp] theorem fetchOperand_y (size k : Nat) (pc : Word) (s : State) : ((fetchOperand size k pc s).2).y = s.y := by
  unfold fetchOperand; split <;> simp
@[simp] theorem fetchOperand_sp (size k : Nat) (pc : Word) (s : State) : ((fetchOperand size k pc s).2).sp = s.sp := by
  unfold fetchOperand; split <;> simp
@[simp] theorem fetchOperand_pc (size k : Nat) (pc : Word) (s : State) : ((fetchOperand size k pc s).2).pc = s.pc := by
  unfold fetchOperand; split <;> simp
@[simp] theorem fetchOperand_flags (size k : Nat) (pc : Word) (s : State) : ((fetchOperand size k pc s).2).flags = s.flags := by
  unfold fetchOperand; split <;> simp
@[simp] theorem fetchOperand_run (size k : Nat) (pc : Word) (s : State) : ((fetchOperand size k pc s).2).run = s.run := by
  unfold fetchOperand; split <;> simp
@[simp] theorem fetchOperand_params (size k : Nat) (pc : Word) (s : State) : ((fetchOperand size k pc s).2).params = s.params := by
  unfold fetchOperand; split <;> simp
@[simp] theorem fetchOperand_mem (size k : Nat) (pc : Word) (s : State) : ((fetchOperand size k pc s).2).mem = s.mem := by
  unfold fetchOperand; split <;> simp
@[simp] theorem fetchOperand_out_cycles (size k : Nat) (pc : Word) (s : State) : ((fetchOperand size k pc s).2).out.cycles = s.out.cycles := by
  unfold fetchOperand; split <;> simp
@[simp] theorem fetchOperand_out_outcomes (size k : Nat) (pc : Word) (s : State) : ((fetchOperand size k pc s).2).out.outcomes = s.out.outcomes := by
  unfold fetchOperand; split <;> simp

@[simp] theorem fetchOperand_linesKept (size k : Nat) (pc : Word) (s : State) : LinesKept s (fetchOperand size k pc s).2 := by
  unfold fetchOperand
  split
  · exact memRead_linesKept _ s
  · exact linesKept_refl s

theorem fetchOperand_accesses (size k : Nat) (pc : Word) (s : State) :
    accessesOf (fetchOperand size k pc s).2.out =
      accessesOf s.out ++ (if k < size then [.r (pc + BitVec.ofNat 16 k)] else []) := by
  unfold fetchOperand
  split
  · simp [accessesOf, accessAt]
  · simp

@[simp] theorem fetch_a (s : State) : ((fetch s).state).a = s.a := by
  simp [fetch]
@[simp] theorem fetch_x (s : State) : ((fetch s).state).x = s.x := by
  simp [fetch]
@[simp] theorem fetch_y (s : State) : ((fetch s).state).y = s.y := by
  simp [fetch]
@[simp] theorem fetch_sp (s : State) : ((fetch s).state).sp = s.sp := by
  simp [fetch]
@[simp] theorem fetch_pc (s : State) : ((fetch s).state).pc = s.pc := by
  simp [fetch]
@[simp] theorem fetch_flags (s : State) : ((fetch s).state).flags = s.flags := by
  simp [fetch]
@[simp] theorem fetch_run (s : State) : ((fetch s).state).run = s.run := by
  simp [fetch]
@[simp] theorem fetch_params (s : State) : ((fetch s).state).params = s.params := by
  simp [fetch]
@[simp] theorem fetch_mem (s : State) : ((fetch s).state).mem = s.mem := by
  simp [fetch]
@[simp] theorem fetch_out_cycles (s : State) : ((fetch s).state).out.cycles = s.out.cycles := by
  simp [fetch]
@[simp] theorem fetch_out_outcomes (s : State) : ((fetch s).state).out.outcomes = s.out.outcomes := by
  simp [fetch]

@[simp] theorem fetch_linesKept (s : State) : LinesKept s (fetch s).state := by
  simp only [fetch]
  refine linesKept_trans ?_ (memRead_linesKept _ s)
    (linesKept_trans ?_ (fetchOperand_linesKept _ _ _ _) (fetchOperand_linesKept _ _ _ _)) <;> simp

theorem sizeOfByte_le_three (op : Byte) : sizeOfByte op ≤ 3 := by
  unfold sizeOfByte
  split
  · rename_i r _; cases r.mode <;> simp [Mode.size]
  · omega

theorem sizeOfByte_pos (op : Byte) : 1 ≤ sizeOfByte op := by
  unfold sizeOfByte
  split
  · rename_i r _; cases r.mode <;> simp [Mode.size]
  · omega

/-- The fetch reads the instruction's bytes from PC upward, and no other byte (R54). -/
theorem fetch_accesses (s : State) :
    accessesOf (fetch s).state.out = accessesOf s.out ++ fetchAccesses (sizeOfByte (s.portByte s.pc)) s.pc := by
  have h1 := sizeOfByte_pos (s.portByte s.pc)
  have h3 := sizeOfByte_le_three (s.portByte s.pc)
  simp only [fetch, memRead_byte, fetchOperand_accesses]
  have : accessesOf (memRead s.pc s).2.out = accessesOf s.out ++ [.r s.pc] := by simp [accessesOf, accessAt]
  rw [this]
  generalize sizeOfByte (s.portByte s.pc) = n at h1 h3
  obtain rfl | rfl | rfl : n = 1 ∨ n = 2 ∨ n = 3 := by omega
  all_goals simp [fetchAccesses, List.range_succ]

/-! ## The instruction part -/

/-- What every instruction that completes leaves alone or keeps in form: `run_state`, the parameters, the interrupt lines but for
hooks, and the canonical form of memory. -/
structure Keeps (s t : State) : Prop where
  run : t.run = s.run
  params : t.params = s.params
  lines : LinesKept s t
  wf : s.mem.wf = true → t.mem.wf = true

theorem keeps_storeByte (i : Instr) (m : MemMode) (v : Byte) (s : State) : Keeps s (storeByte i m v s) :=
  ⟨by simp, by simp, storeByte_linesKept _ _ _ _, storeByte_wf _ _ _⟩

theorem keeps_modifyByte (i : Instr) (m : MemMode) (f : Byte → Byte) (g : Flags → Byte → Flags) (s : State) :
    Keeps s (modifyByte i m f g s) :=
  ⟨by simp, by simp, modifyByte_linesKept _ _ _ _ _, modifyByte_wf _ _ _ _⟩

theorem keeps_shiftTarget (i : Instr) (t : Target) (f : Byte → Shifted) (s : State) : Keeps s (shiftTarget i t f s) :=
  ⟨by simp, by simp, shiftTarget_linesKept _ _ _ _, shiftTarget_wf _ _ _⟩

theorem keeps_branchIf (i : Instr) (cond : Bool) (d : Byte) (s : State) : Keeps s (branchIf i cond d s) :=
  ⟨by simp, by simp, branchIf_linesKept _ _ _ _, by simp⟩

/-- Every instruction that completes keeps what `Keeps` says. -/
theorem exec_keeps {i : Instr} {s t : State} (h : exec i s = .next t) : Keeps s t := by
  cases i <;>
    simp only [exec, execLda, execLdx, execLdy, execSta, execStx, execSty, execTax, execTay, execTxa, execTya, execTsx, execTxs,
      execPha, execPhp, execPla, execPlp, execAnd, execOra, execEor, execBit, execAdc, execSbc, execCmp, execCpx, execCpy,
      execInc, execDec, execInx, execIny, execDex, execDey, execAsl, execLsr, execRol, execRor, execJmp, execJsr, execRts,
      execRti, execBrk, execBpl, execBmi, execBvc, execBvs, execBcc, execBcs, execBne, execBeq, execClc, execSec, execCli,
      execSei, execClv, execCld, execSed, execNop, execUnknown, Host.Outcome.next.injEq] at h
  case unknown op =>
    split at h
    · cases h
    · cases h; constructor <;> simp
  all_goals subst h
  case sta => exact keeps_storeByte _ _ _ _
  case stx => exact keeps_storeByte _ _ _ _
  case sty => exact keeps_storeByte _ _ _ _
  case inc => exact keeps_modifyByte _ _ _ _ _
  case dec => exact keeps_modifyByte _ _ _ _ _
  case asl => exact keeps_shiftTarget _ _ _ _
  case lsr => exact keeps_shiftTarget _ _ _ _
  case rol => exact keeps_shiftTarget _ _ _ _
  case ror => exact keeps_shiftTarget _ _ _ _
  case pha => exact ⟨by simp, by simp, by simp, fun h => by simpa using push8_wf _ h⟩
  case php => exact ⟨by simp, by simp, by simp, fun h => by simpa using push8_wf _ h⟩
  case jsr => exact ⟨by simp, by simp, by simp, fun h => by simpa using push16_wf _ h⟩
  case brk => exact ⟨by simp, by simp, by simp, fun h => by simpa using takeInterrupt_wf _ _ _ h⟩
  all_goals first
    | exact keeps_branchIf _ _ _ _
    | exact ⟨by simp, by simp, by simp, by simp⟩

/-! ## The boundary evaluation -/

@[simp] theorem service_a (vec : Word) (s : State) : (service vec s).a = s.a := by
  simp [service]
@[simp] theorem service_x (vec : Word) (s : State) : (service vec s).x = s.x := by
  simp [service]
@[simp] theorem service_y (vec : Word) (s : State) : (service vec s).y = s.y := by
  simp [service]
@[simp] theorem service_run (vec : Word) (s : State) : (service vec s).run = s.run := by
  simp [service]
@[simp] theorem service_params (vec : Word) (s : State) : (service vec s).params = s.params := by
  simp [service]
@[simp] theorem service_out_cycles (vec : Word) (s : State) : (service vec s).out.cycles = s.out.cycles := by
  simp [service]
@[simp] theorem service_out_outcomes (vec : Word) (s : State) : (service vec s).out.outcomes = s.out.outcomes := by
  simp [service]
@[simp] theorem service_flags (vec : Word) (s : State) : (service vec s).flags = { s.flags with i := true } := by
  simp [service]
@[simp] theorem service_sp (vec : Word) (s : State) : (service vec s).sp = s.sp - 3#8 := by simp [service]

theorem takeInterrupt_accesses (ret : Word) (brk : Bool) (vec : Word) (s : State) :
    accessesOf (takeInterrupt ret brk vec s).out = accessesOf s.out ++ serviceAccesses vec s := by
  have e1 : s.sp - 1#8 = s.sp + BitVec.ofInt 8 (-1) := by bv_omega
  have e2 : s.sp - 1#8 - 1#8 = s.sp + BitVec.ofInt 8 (-2) := by bv_omega
  have hp : ∀ (v : Byte) (t : State), accessesOf (push8 v t).out = accessesOf t.out ++ [.w (stackAddr t.sp)] :=
    push8_accesses
  have hr : ∀ (a b : Word) (t : State), accessesOf (readPair a b t).2.out = accessesOf t.out ++ [.r a, .r b] :=
    readPair_accesses
  simp only [takeInterrupt, State.setPc_out, readWord, hr, State.setFlags_out, hp, push16, push8_sp, serviceAccesses, stackAt,
    stackAddr, ← e1, ← e2, List.append_assoc, List.singleton_append]
  simp

/-- The accesses of an instruction part that completes are exactly those of R115's table. -/
theorem exec_accesses {i : Instr} {s t : State} (h : exec i s = .next t) : accessesOf t.out = accessesOf s.out ++ instrAccesses i s := by
  have push : ∀ (v : Byte) (s : State), accessesOf (push8 v s).out = accessesOf s.out ++ [.w (stackAddr s.sp)] := push8_accesses
  have pull : ∀ (s : State), accessesOf (pull8 s).2.out = accessesOf s.out ++ [.r (stackAddr (s.sp + 1#8))] := pull8_accesses
  have hz : ∀ s : State, stackAt s 0 = stackAddr s.sp := by intro s; simp [stackAt, stackAddr]
  have h1 : ∀ s : State, stackAt s 1 = stackAddr (s.sp + 1#8) := by intro s; simp [stackAt, stackAddr]
  have h2 : ∀ s : State, stackAt s 2 = stackAddr (s.sp + 1#8 + 1#8) := by intro s; simp [stackAt, stackAddr]; congr 1; bv_omega
  have h3 : ∀ s : State, stackAt s 3 = stackAddr (s.sp + 1#8 + 1#8 + 1#8) := by intro s; simp [stackAt, stackAddr]; congr 1; bv_omega
  have hm1 : ∀ s : State, stackAt s (-1) = stackAddr (s.sp - 1#8) := by
    intro s
    have : s.sp - 1#8 = s.sp + BitVec.ofInt 8 (-1) := by bv_omega
    simp only [stackAt, stackAddr, this]
  cases i <;> simp only [exec, execLda, execLdx, execLdy, execSta, execStx, execSty, execTax, execTay, execTxa, execTya, execTsx, execTxs,
      execPha, execPhp, execPla, execPlp, execAnd, execOra, execEor, execBit, execAdc, execSbc, execCmp, execCpx, execCpy,
      execInc, execDec, execInx, execIny, execDex, execDey, execAsl, execLsr, execRol, execRor, execJmp, execJsr, execRts,
      execRti, execBrk, execBpl, execBmi, execBvc, execBvs, execBcc, execBcs, execBne, execBeq, execClc, execSec, execCli,
      execSei, execClv, execCld, execSed, execNop, execUnknown, Host.Outcome.next.injEq] at h
  case unknown op =>
    split at h
    · cases h
    · cases h; simp [accessesOf, instrAccesses]
  all_goals subst h
  case pha => simpa [accessesOf, instrAccesses, hz] using push s.a s
  case php => simpa [accessesOf, instrAccesses, hz] using push (statusByte true s.flags) s
  case pla => simpa [accessesOf, instrAccesses, h1, State.setZN] using pull s
  case plp => simpa [accessesOf, instrAccesses, h1] using pull s
  case jsr w =>
    have : accessesOf (push16 (s.pc + 2#16) s).out = accessesOf s.out ++ [.w (stackAt s 0), .w (stackAt s (-1))] := by
      simp [push16, push, hz, hm1]
    simpa [accessesOf, instrAccesses] using this
  case rts =>
    have : accessesOf (pull16 s).2.out = accessesOf s.out ++ [.r (stackAt s 1), .r (stackAt s 2)] := by
      simp [pull16, pull, h1, h2]
    simpa [accessesOf, instrAccesses] using this
  case rti =>
    have : accessesOf (returnFromInterrupt s).out = accessesOf s.out ++ [.r (stackAt s 1), .r (stackAt s 2), .r (stackAt s 3)] := by
      simp [returnFromInterrupt, pull16, pull, h1, h2, h3]
    simpa [accessesOf, instrAccesses] using this
  case brk =>
    have := takeInterrupt_accesses (s.pc + 2#16) true vecIrq s
    generalize takeInterrupt (s.pc + 2#16) true vecIrq s = q at *
    simpa [accessesOf, instrAccesses, serviceAccesses, vecIrq] using this
  case jmp j =>
    cases j with
    | absolute w => simp [accessesOf, instrAccesses, resolveJump]
    | indirect w =>
      simpa [accessesOf, instrAccesses, resolveJump, readWordPageWrap] using readPair_accesses w (word (hi w) (lo w + 1#8)) s
  case sta => exact storeByte_accesses _ _ _ _
  case stx => exact storeByte_accesses _ _ _ _
  case sty => exact storeByte_accesses _ _ _ _
  case inc => exact modifyByte_accesses _ _ _ _ _
  case dec => exact modifyByte_accesses _ _ _ _ _
  case asl => exact shiftTarget_accesses _ _ _ _
  case lsr => exact shiftTarget_accesses _ _ _ _
  case rol => exact shiftTarget_accesses _ _ _ _
  case ror => exact shiftTarget_accesses _ _ _ _
  case bit => simpa [accessesOf, instrAccesses] using readMem_accesses _ s
  all_goals first
    | (have hq := readSource_accesses (by assumption) s
       simpa [accessesOf, instrAccesses, State.setZN] using hq)
    | simp [accessesOf, instrAccesses, State.setZN]

theorem serviceNmi_params (s : State) : (serviceNmi s).params = s.params := by simp [serviceNmi]
theorem serviceNmi_run (s : State) : (serviceNmi s).run = s.run := by simp [serviceNmi]
theorem serviceIrq_params (s : State) : (serviceIrq s).params = s.params := by simp [serviceIrq]
theorem serviceIrq_run (s : State) : (serviceIrq s).run = s.run := by simp [serviceIrq]

@[simp] theorem boundary_params (s : State) : (boundary s).params = s.params := by
  unfold boundary; split <;> [skip; split] <;> simp [serviceNmi_params, serviceIrq_params]
@[simp] theorem boundary_run (s : State) : (boundary s).run = s.run := by
  unfold boundary; split <;> [skip; split] <;> simp [serviceNmi_run, serviceIrq_run]

theorem boundary_wf {s : State} (h : s.mem.wf = true) : (boundary s).mem.wf = true := by
  unfold boundary
  split
  · simpa [serviceNmi, service] using
      takeInterrupt_wf s.pc false vecNmi (s := s.setLines { s.lines with nmiPending := false }) (by simpa using h)
  · split
    · simpa [serviceIrq, service] using takeInterrupt_wf s.pc false vecIrq h
    · exact h

theorem boundary_lines_wf {s : State} (h : s.lines.irqActive.wf = true) : (boundary s).lines.irqActive.wf = true := by
  unfold boundary
  split
  · simp only [serviceNmi, service, State.addCycles_lines, State.signal_lines]
    exact linesKept_wf (takeInterrupt_linesKept _ _ _ _) (by simpa using h)
  · split
    · simp only [serviceIrq, service, State.addCycles_lines, State.signal_lines, State.setLines_lines]
      exact SourceSet.wf_filter (linesKept_wf (takeInterrupt_linesKept _ _ _ _) h) _
    · exact h

/-! ## A step -/

/-- What a step that completes is made of: it starts in Running, its instruction part completes on the fetched state, and the boundary
evaluation follows. -/
theorem step_next {s t : State} (h : step s = .next t) :
    s.run = .running ∧ ∃ u, exec (fetch s.beginOutput).instr (fetch s.beginOutput).state = .next u ∧ t = boundary u := by
  unfold step at h
  split at h
  · cases h
  · rename_i hr
    refine ⟨hr, ?_⟩
    revert h
    cases exec (fetch s.beginOutput).instr (fetch s.beginOutput).state <;> simp [finishStep]
    exact fun h => h.symm

/-! ## The environment -/

theorem storeBlock_frame (base : Word) (bytes : List Byte) (s : State) :
    (storeBlock base bytes s) = s.setMem (storeBlock base bytes s).mem := by
  induction bytes generalizing base s with
  | nil => rfl
  | cons v vs ih => rw [storeBlock, ih]; rfl

theorem storeBlock_wf (base : Word) (bytes : List Byte) {s : State} (h : s.mem.wf = true) :
    (storeBlock base bytes s).mem.wf = true := by
  induction bytes generalizing base s with
  | nil => exact h
  | cons v vs ih => exact ih _ (Memory.wf_write h base.isLt v)

theorem envReset_mem (d : Draws) (s : State) : (envReset d s).mem = s.mem := by simp [envReset]
theorem envReset_params (d : Draws) (s : State) : (envReset d s).params = s.params := by simp [envReset]
theorem envReset_run (d : Draws) (s : State) : (envReset d s).run = .running := by simp [envReset]

theorem envReset_lines_wf (d : Draws) {s : State} (h : s.lines.irqActive.wf = true) :
    (envReset d s).lines.irqActive.wf = true := by
  simp only [envReset, State.addCycles_lines, State.setRun_lines, State.setLines_lines, State.setFlags_lines, State.setSp_lines,
    State.setY_lines, State.setX_lines, State.setA_lines, State.setPc_lines]
  exact linesKept_wf (readWord_linesKept vecReset s.beginOutput) (by simpa using h)

end Sys2Proof.Machine
end

