-- ==== Sys2Proof/Tests/Slice0.lean ====
section
/-! SUPPORT. Tests: the well-formedness smoke tests, words written out from the encodings of spec/30 and spec/41 to spec/46, vectors of
spec/96 (their values are the spec's, not the model's), and a witness for the hypotheses of each statement. -/

namespace Sys2Proof.Tests

open Sys2Proof.Machine Sys2Proof.Safety

/-! ## Helpers -/

/-- The default start state of the vectors (`spec/95_test_vectors.md` section 0). -/
def start : State :=
  { State.reset with sp := 0xFF#8, pc := 0x0600#16, flags := { State.reset.flags with i := false } }

/-- A program at PC and some cells of memory. -/
def load (prog : List Byte) (cells : List (Nat × Byte)) (s : State) : State :=
  storeBlock s.pc prog (s.setMem (cells.foldl (fun m c => m.write c.1 c.2) s.mem))

/-- What a step's next state shows. -/
def result {α : Type} (s : State) (f : State → α) : Option α :=
  match step s with
  | .next t => some (f t)
  | .fault _ => none
  | .refused _ => none

/-- Why a step stops. -/
def stops (s : State) : Option Fault :=
  match step s with
  | .next _ => none
  | .fault f => some f
  | .refused _ => none

/-! ## Well-formedness: a term that each check refuses, and one beside it that it accepts -/

theorem test_wellFormed_lda :
    Instr.wellFormed (.lda (.mem (.zeroPageY 0x10#8))) = false ∧ Instr.wellFormed (.lda (.mem (.absoluteY 0x1234#16))) = true := by decide

theorem test_wellFormed_ldx :
    Instr.wellFormed (.ldx (.mem (.zeroPageX 0x10#8))) = false ∧ Instr.wellFormed (.ldx (.mem (.zeroPageY 0x10#8))) = true := by decide

theorem test_wellFormed_ldy :
    Instr.wellFormed (.ldy (.mem (.absoluteY 0x1234#16))) = false ∧ Instr.wellFormed (.ldy (.mem (.absoluteX 0x1234#16))) = true := by decide

theorem test_wellFormed_sta :
    Instr.wellFormed (.sta (.zeroPageY 0x10#8)) = false ∧ Instr.wellFormed (.sta (.zeroPageX 0x10#8)) = true := by decide

theorem test_wellFormed_stx :
    Instr.wellFormed (.stx (.absoluteY 0x1234#16)) = false ∧ Instr.wellFormed (.stx (.zeroPageY 0x10#8)) = true := by decide

theorem test_wellFormed_sty :
    Instr.wellFormed (.sty (.absoluteX 0x1234#16)) = false ∧ Instr.wellFormed (.sty (.zeroPageX 0x10#8)) = true := by decide

theorem test_wellFormed_and :
    Instr.wellFormed (.and (.mem (.zeroPageY 0x10#8))) = false ∧ Instr.wellFormed (.and (.imm 0x10#8)) = true := by decide

theorem test_wellFormed_ora :
    Instr.wellFormed (.ora (.mem (.zeroPageY 0x10#8))) = false ∧ Instr.wellFormed (.ora (.imm 0x10#8)) = true := by decide

theorem test_wellFormed_eor :
    Instr.wellFormed (.eor (.mem (.zeroPageY 0x10#8))) = false ∧ Instr.wellFormed (.eor (.imm 0x10#8)) = true := by decide

theorem test_wellFormed_bit :
    Instr.wellFormed (.bit (.zeroPageX 0x10#8)) = false ∧ Instr.wellFormed (.bit (.zeroPage 0x10#8)) = true := by decide

theorem test_wellFormed_adc :
    Instr.wellFormed (.adc (.mem (.zeroPageY 0x10#8))) = false ∧ Instr.wellFormed (.adc (.mem (.indexedIndirect 0x10#8))) = true := by decide

theorem test_wellFormed_sbc :
    Instr.wellFormed (.sbc (.mem (.zeroPageY 0x10#8))) = false ∧ Instr.wellFormed (.sbc (.mem (.indirectIndexed 0x10#8))) = true := by decide

theorem test_wellFormed_cmp :
    Instr.wellFormed (.cmp (.mem (.zeroPageY 0x10#8))) = false ∧ Instr.wellFormed (.cmp (.mem (.zeroPageX 0x10#8))) = true := by decide

theorem test_wellFormed_cpx :
    Instr.wellFormed (.cpx (.mem (.zeroPageX 0x10#8))) = false ∧ Instr.wellFormed (.cpx (.mem (.zeroPage 0x10#8))) = true := by decide

theorem test_wellFormed_cpy :
    Instr.wellFormed (.cpy (.mem (.absoluteX 0x1234#16))) = false ∧ Instr.wellFormed (.cpy (.mem (.absolute 0x1234#16))) = true := by decide

theorem test_wellFormed_inc :
    Instr.wellFormed (.inc (.absoluteY 0x1234#16)) = false ∧ Instr.wellFormed (.inc (.absoluteX 0x1234#16)) = true := by decide

theorem test_wellFormed_dec :
    Instr.wellFormed (.dec (.indirectIndexed 0x10#8)) = false ∧ Instr.wellFormed (.dec (.zeroPage 0x10#8)) = true := by decide

theorem test_wellFormed_asl :
    Instr.wellFormed (.asl (.mem (.absoluteY 0x1234#16))) = false ∧ Instr.wellFormed (.asl .acc) = true := by decide

theorem test_wellFormed_lsr :
    Instr.wellFormed (.lsr (.mem (.zeroPageY 0x10#8))) = false ∧ Instr.wellFormed (.lsr .acc) = true := by decide

theorem test_wellFormed_rol :
    Instr.wellFormed (.rol (.mem (.indexedIndirect 0x10#8))) = false ∧ Instr.wellFormed (.rol .acc) = true := by decide

theorem test_wellFormed_ror :
    Instr.wellFormed (.ror (.mem (.indirectIndexed 0x10#8))) = false ∧ Instr.wellFormed (.ror .acc) = true := by decide

theorem test_wellFormed_unknown :
    Instr.wellFormed (.unknown 0xA9#8) = false ∧ Instr.wellFormed (.unknown 0x89#8) = true := by decide

/-! ## Decoding: a word for every constructor, its bits from the `Encoding` rows of spec/41 to spec/46 and R88 -/

/-- One word for each instruction of spec/41. -/
theorem test_decode_loads_stores_transfers :
    decode [0xB1#8, 0x20#8] = .ok (.lda (.mem (.indirectIndexed 0x20#8))) [] ∧
    decode [0xB6#8, 0xFF#8] = .ok (.ldx (.mem (.zeroPageY 0xFF#8))) [] ∧
    decode [0xBC#8, 0xFF#8, 0x20#8] = .ok (.ldy (.mem (.absoluteX 0x20FF#16))) [] ∧
    decode [0x81#8, 0x20#8] = .ok (.sta (.indexedIndirect 0x20#8)) [] ∧
    decode [0x96#8, 0xFF#8] = .ok (.stx (.zeroPageY 0xFF#8)) [] ∧
    decode [0x8C#8, 0x34#8, 0x12#8] = .ok (.sty (.absolute 0x1234#16)) [] ∧
    decode [0xAA#8] = .ok (.tax) [] ∧
    decode [0xA8#8] = .ok (.tay) [] ∧
    decode [0x8A#8] = .ok (.txa) [] ∧
    decode [0x98#8] = .ok (.tya) [] ∧
    decode [0xBA#8] = .ok (.tsx) [] ∧
    decode [0x9A#8] = .ok (.txs) [] := by
  decide

/-- One word for each instruction of spec/42. -/
theorem test_decode_stack :
    decode [0x48#8] = .ok (.pha) [] ∧
    decode [0x08#8] = .ok (.php) [] ∧
    decode [0x68#8] = .ok (.pla) [] ∧
    decode [0x28#8] = .ok (.plp) [] := by
  decide

/-- One word for each instruction of spec/43. -/
theorem test_decode_alu :
    decode [0x29#8, 0x0F#8] = .ok (.and (.imm 0x0F#8)) [] ∧
    decode [0x1D#8, 0x34#8, 0x12#8] = .ok (.ora (.mem (.absoluteX 0x1234#16))) [] ∧
    decode [0x55#8, 0x10#8] = .ok (.eor (.mem (.zeroPageX 0x10#8))) [] ∧
    decode [0x2C#8, 0x00#8, 0x20#8] = .ok (.bit (.absolute 0x2000#16)) [] ∧
    decode [0x79#8, 0xFF#8, 0x12#8] = .ok (.adc (.mem (.absoluteY 0x12FF#16))) [] ∧
    decode [0xE1#8, 0x20#8] = .ok (.sbc (.mem (.indexedIndirect 0x20#8))) [] ∧
    decode [0xC5#8, 0x10#8] = .ok (.cmp (.mem (.zeroPage 0x10#8))) [] ∧
    decode [0xEC#8, 0x00#8, 0x20#8] = .ok (.cpx (.mem (.absolute 0x2000#16))) [] ∧
    decode [0xC0#8, 0x80#8] = .ok (.cpy (.imm 0x80#8)) [] := by
  decide

/-- One word for each instruction of spec/44. -/
theorem test_decode_incdec_shift :
    decode [0xF6#8, 0x10#8] = .ok (.inc (.zeroPageX 0x10#8)) [] ∧
    decode [0xDE#8, 0x00#8, 0x20#8] = .ok (.dec (.absoluteX 0x2000#16)) [] ∧
    decode [0xE8#8] = .ok (.inx) [] ∧
    decode [0xC8#8] = .ok (.iny) [] ∧
    decode [0xCA#8] = .ok (.dex) [] ∧
    decode [0x88#8] = .ok (.dey) [] ∧
    decode [0x0A#8] = .ok (.asl .acc) [] ∧
    decode [0x4E#8, 0x00#8, 0x20#8] = .ok (.lsr (.mem (.absolute 0x2000#16))) [] ∧
    decode [0x26#8, 0x10#8] = .ok (.rol (.mem (.zeroPage 0x10#8))) [] ∧
    decode [0x76#8, 0x10#8] = .ok (.ror (.mem (.zeroPageX 0x10#8))) [] := by
  decide

/-- One word for each instruction of spec/45. -/
theorem test_decode_control :
    decode [0x6C#8, 0xFF#8, 0x10#8] = .ok (.jmp (.indirect 0x10FF#16)) [] ∧
    decode [0x20#8, 0x00#8, 0x10#8] = .ok (.jsr 0x1000#16) [] ∧
    decode [0x60#8] = .ok (.rts) [] ∧
    decode [0x40#8] = .ok (.rti) [] ∧
    decode [0x00#8] = .ok (.brk) [] ∧
    decode [0x10#8, 0x05#8] = .ok (.bpl 0x05#8) [] ∧
    decode [0x30#8, 0x05#8] = .ok (.bmi 0x05#8) [] ∧
    decode [0x50#8, 0x05#8] = .ok (.bvc 0x05#8) [] ∧
    decode [0x70#8, 0x05#8] = .ok (.bvs 0x05#8) [] ∧
    decode [0x90#8, 0xFD#8] = .ok (.bcc 0xFD#8) [] ∧
    decode [0xB0#8, 0x05#8] = .ok (.bcs 0x05#8) [] ∧
    decode [0xD0#8, 0x80#8] = .ok (.bne 0x80#8) [] ∧
    decode [0xF0#8, 0x7F#8] = .ok (.beq 0x7F#8) [] := by
  decide

/-- One word for each instruction of spec/46 and R88. -/
theorem test_decode_flags_nop_unknown :
    decode [0x18#8] = .ok (.clc) [] ∧
    decode [0x38#8] = .ok (.sec) [] ∧
    decode [0x58#8] = .ok (.cli) [] ∧
    decode [0x78#8] = .ok (.sei) [] ∧
    decode [0xB8#8] = .ok (.clv) [] ∧
    decode [0xD8#8] = .ok (.cld) [] ∧
    decode [0xF8#8] = .ok (.sed) [] ∧
    decode [0xEA#8] = .ok (.nop) [] ∧
    decode [0xA7#8] = .ok (.unknown 0xA7#8) [] := by
  decide

/-- The worked fields of R81: the second word byte is the high byte, and bytes after the instruction are left. -/
theorem test_decode_rest : decode [0xAD#8, 0x34#8, 0x12#8, 0xEA#8] = .ok (.lda (.mem (.absolute 0x1234#16))) [0xEA#8] := by decide

/-- Bytes that end too soon are refused by name (R82). -/
theorem test_decode_short :
    decode [] = .refused .noBytes ∧ decode [0xAD#8, 0x34#8] = .refused (.missingOperand 0xAD#8) := by decide

/-- R87 (2): no two rows share an opcode byte, and no two share a mnemonic and a mode. -/
theorem test_rows_distinct :
    (opcodeTable.map OpRow.opcode).Nodup ∧ (opcodeTable.map (fun r => (r.mnemonic, r.mode))).Nodup := by decide +kernel

/-- R87 (3): a byte whose two low bits are 11 is unknown. -/
theorem test_low_bits_11 : ∀ op : Byte, op.getLsbD 0 = true → op.getLsbD 1 = true → rowOfByte op = none := by decide +kernel

/-- R87 (4): the eight branches. -/
theorem test_branch_bytes :
    (List.range 8).map (fun k => decodeBytes (BitVec.ofNat 8 (0x10 + 0x20 * k)) 0x05#8 0#8) =
      [.bpl 0x05#8, .bmi 0x05#8, .bvc 0x05#8, .bvs 0x05#8, .bcc 0x05#8, .bcs 0x05#8, .bne 0x05#8, .beq 0x05#8] := by decide

/-! ## Single steps: vectors of spec/96, two at most for an instruction -/

/-- V5 of spec/96: `LDA $FF,X`. -/
theorem test_lda_V5 :
    result (load [0xB5#8, 0xFF#8] [(0x0000, 0x22#8), (0x0100, 0x99#8)] { start with x := 0x01#8 })
        (fun t => (t.a, t.pc, t.out.cycles)) =
      some (0x22#8, 0x0602#16, 4) := by decide

/-- V16 of spec/96: `LDA ($F0,X)`. -/
theorem test_lda_V16 :
    result (load [0xA1#8, 0xF0#8] [(0x0000, 0x40#8), (0x00FF, 0x00#8), (0x0100, 0x99#8), (0x4000, 0xCD#8)] { start with x := 0x0F#8 })
        (fun t => (t.a, t.flags.n, t.pc, t.out.cycles)) =
      some (0xCD#8, true, 0x0602#16, 6) := by decide

/-- V7 of spec/96: `LDX $FF,Y`. -/
theorem test_ldx_V7 :
    result (load [0xB6#8, 0xFF#8] [(0x0000, 0x44#8), (0x0100, 0x99#8)] { start with y := 0x01#8 })
        (fun t => (t.x, t.pc, t.out.cycles)) =
      some (0x44#8, 0x0602#16, 4) := by decide

/-- V36 of spec/96: `LDX $2001,Y`. -/
theorem test_ldx_V36 :
    result (load [0xBE#8, 0x01#8, 0x20#8] [(0x2100, 0x32#8)] { start with y := 0xFF#8 })
        (fun t => (t.x, t.pc, t.out.cycles)) =
      some (0x32#8, 0x0603#16, 5) := by decide

/-- V39 of spec/96: `LDY $20FF,X`. -/
theorem test_ldy_V39 :
    result (load [0xBC#8, 0xFF#8, 0x20#8] [(0x2100, 0x01#8)] { start with x := 0x01#8 })
        (fun t => (t.y, t.pc, t.out.cycles)) =
      some (0x01#8, 0x0603#16, 5) := by decide

/-- V22 of spec/96: `STA $12FF,X`. -/
theorem test_sta_V22 :
    result (load [0x9D#8, 0xFF#8, 0x12#8] [] { start with a := 0xAA#8, x := 0x01#8 })
        (fun t => (t.pc, t.mem.read 0x1300, t.out.cycles)) =
      some (0x0603#16, 0xAA#8, 5) := by decide

/-- V41 of spec/96: `STA $F0,X`. -/
theorem test_sta_V41 :
    result (load [0x95#8, 0xF0#8] [] { start with a := 0x12#8, x := 0x20#8 })
        (fun t => (t.pc, t.mem.read 0x0010, t.out.cycles)) =
      some (0x0602#16, 0x12#8, 4) := by decide

/-- V44 of spec/96: `STX $FF,Y`. -/
theorem test_stx_V44 :
    result (load [0x96#8, 0xFF#8] [] { start with x := 0x11#8, y := 0x02#8 })
        (fun t => (t.pc, t.mem.read 0x0001, t.out.cycles)) =
      some (0x0602#16, 0x11#8, 4) := by decide

/-- V47 of spec/96: `STY $10,X`. -/
theorem test_sty_V47 :
    result (load [0x94#8, 0x10#8] [] { start with x := 0x01#8, y := 0x42#8 })
        (fun t => (t.pc, t.mem.read 0x0011, t.out.cycles)) =
      some (0x0602#16, 0x42#8, 4) := by decide

/-- V49 of spec/96: `TAX`. -/
theorem test_tax_V49 :
    result (load [0xAA#8] [] { start with a := 0x80#8, x := 0x01#8 }) (fun t => (t.x, t.flags.n, t.pc, t.out.cycles)) =
      some (0x80#8, true, 0x0601#16, 2) := by decide

/-- V51 of spec/96: `TAY`. -/
theorem test_tay_V51 :
    result (load [0xA8#8] [] { start with a := 0x00#8, y := 0x01#8 }) (fun t => (t.y, t.flags.z, t.pc, t.out.cycles)) =
      some (0x00#8, true, 0x0601#16, 2) := by decide

/-- V53 of spec/96: `TXA`. -/
theorem test_txa_V53 :
    result (load [0x8A#8] [] { start with a := 0x01#8, x := 0x00#8 }) (fun t => (t.a, t.flags.z, t.pc, t.out.cycles)) =
      some (0x00#8, true, 0x0601#16, 2) := by decide

/-- V55 of spec/96: `TYA`. -/
theorem test_tya_V55 :
    result (load [0x98#8] [] { start with a := 0x80#8, y := 0x7F#8, flags := { start.flags with n := true } })
        (fun t => (t.a, t.flags.n, t.pc, t.out.cycles)) =
      some (0x7F#8, false, 0x0601#16, 2) := by decide

/-- V56 of spec/96: `TSX`. -/
theorem test_tsx_V56 :
    result (load [0xBA#8] [] { start with x := 0x01#8, sp := 0x00#8 }) (fun t => (t.x, t.flags.z, t.pc, t.out.cycles)) =
      some (0x00#8, true, 0x0601#16, 2) := by decide

/-- V58 of spec/96: `TXS`. -/
theorem test_txs_V58 :
    result (load [0x9A#8] [] { start with x := 0x00#8, flags := { start.flags with n := true, z := false } })
        (fun t => (t.sp, t.flags.n, t.flags.z, t.pc, t.out.cycles)) =
      some (0x00#8, true, false, 0x0601#16, 2) := by decide

/-- V61 of spec/96: `PHA`. -/
theorem test_pha_V61 :
    result (load [0x48#8] [] { start with a := 0x43#8, sp := 0x00#8 })
        (fun t => (t.sp, t.pc, t.mem.read 0x0100, t.out.cycles)) =
      some (0xFF#8, 0x0601#16, 0x43#8, 3) := by decide

/-- V62 of spec/96: `PHP`. -/
theorem test_php_V62 :
    result (load [0x08#8] [] start) (fun t => (t.sp, t.pc, t.mem.read 0x01FF, t.out.cycles)) =
      some (0xFE#8, 0x0601#16, 0x30#8, 3) := by decide

/-- V64 of spec/96: `PHP`. -/
theorem test_php_V64 :
    result (load [0x08#8] [] { start with flags := { start.flags with n := true, i := true, c := true } })
        (fun t => (t.sp, t.pc, t.mem.read 0x01FF, t.out.cycles)) =
      some (0xFE#8, 0x0601#16, 0xB5#8, 3) := by decide

/-- V65 of spec/96: `PLA`. -/
theorem test_pla_V65 :
    result (load [0x68#8] [(0x01FF, 0x00#8)] { start with a := 0x05#8, sp := 0xFE#8 })
        (fun t => (t.a, t.sp, t.flags.z, t.pc, t.out.cycles)) =
      some (0x00#8, 0xFF#8, true, 0x0601#16, 4) := by decide

/-- V67 of spec/96: `PLA`. -/
theorem test_pla_V67 :
    result (load [0x68#8] [(0x0100, 0x77#8)] { start with sp := 0xFF#8 }) (fun t => (t.a, t.sp, t.pc, t.out.cycles)) =
      some (0x77#8, 0x00#8, 0x0601#16, 4) := by decide

/-- V68 of spec/96: `PLP`. -/
theorem test_plp_V68 :
    result (load [0x28#8] [(0x01FF, 0xFF#8)] { start with sp := 0xFE#8 }) (fun t => (t.sp, t.flags, t.pc, t.out.cycles)) =
      some (0xFF#8, { n := true, v := true, d := true, i := true, z := true, c := true }, 0x0601#16, 4) := by decide

/-- V72 of spec/96: `PLP`. -/
theorem test_plp_V72 :
    result (load [0x28#8] [(0x01FF, 0x20#8), (0xFFFE, 0x00#8), (0xFFFF, 0x90#8)] { start with sp := 0xFE#8, flags := { start.flags with i := true }, lines := { start.lines with irqActive := [5] } })
        (fun t => (t.sp, t.flags.i, t.pc, [t.mem.read 0x01FF, t.mem.read 0x01FE, t.mem.read 0x01FD], t.out.outcomes)) =
      some (0xFC#8, true, 0x9000#16, [0x06#8, 0x01#8, 0x20#8], [.serviced .irq]) := by decide

/-- V73 of spec/96: `AND #$0F`. -/
theorem test_and_V73 :
    result (load [0x29#8, 0x0F#8] [] { start with a := 0xF0#8 }) (fun t => (t.a, t.flags.z, t.pc, t.out.cycles)) =
      some (0x00#8, true, 0x0602#16, 2) := by decide

/-- V76 of spec/96: `ORA #$00`. -/
theorem test_ora_V76 :
    result (load [0x09#8, 0x00#8] [] { start with a := 0x00#8, flags := { start.flags with n := true } })
        (fun t => (t.flags.n, t.flags.z, t.pc, t.out.cycles)) =
      some (false, true, 0x0602#16, 2) := by decide

/-- V79 of spec/96: `EOR #$FF`. -/
theorem test_eor_V79 :
    result (load [0x49#8, 0xFF#8] [] { start with a := 0x0F#8 }) (fun t => (t.a, t.flags.n, t.pc, t.out.cycles)) =
      some (0xF0#8, true, 0x0602#16, 2) := by decide

/-- V80 of spec/96: `BIT $10`. -/
theorem test_bit_V80 :
    result (load [0x24#8, 0x10#8] [(0x0010, 0xC0#8)] { start with a := 0x01#8 })
        (fun t => (t.a, t.flags, t.pc, t.out.cycles)) =
      some (0x01#8, { n := true, v := true, d := false, i := false, z := true, c := false }, 0x0602#16, 3) := by decide

/-- V81 of spec/96: `BIT $10`. -/
theorem test_bit_V81 :
    result (load [0x24#8, 0x10#8] [(0x0010, 0x3F#8)] { start with a := 0xFF#8, flags := { start.flags with n := true, v := true } })
        (fun t => (t.flags.n, t.flags.v, t.pc, t.out.cycles)) =
      some (false, false, 0x0602#16, 3) := by decide

/-- V93 of spec/96: `ADC #$00`. -/
theorem test_adc_V93 :
    result (load [0x69#8, 0x00#8] [] { start with a := 0x7F#8, flags := { start.flags with c := true } })
        (fun t => (t.a, t.flags, t.pc, t.out.cycles)) =
      some (0x80#8, { n := true, v := true, d := false, i := false, z := false, c := false }, 0x0602#16, 2) := by decide

/-- V116 of spec/96: `ADC #$46`. -/
theorem test_adc_V116 :
    result (load [0x69#8, 0x46#8] [] { start with a := 0x58#8, flags := { start.flags with d := true, c := true } })
        (fun t => (t.a, t.flags, t.pc, t.out.cycles)) =
      some (0x05#8, { n := true, v := true, d := true, i := false, z := false, c := true }, 0x0602#16, 2) := by decide

/-- V109 of spec/96: `SBC #$00`. -/
theorem test_sbc_V109 :
    result (load [0xE9#8, 0x00#8] [] { start with a := 0x80#8, flags := { start.flags with c := false } })
        (fun t => (t.a, t.flags, t.pc, t.out.cycles)) =
      some (0x7F#8, { n := false, v := true, d := false, i := false, z := false, c := true }, 0x0602#16, 2) := by decide

/-- V130 of spec/96: `SBC #$21`. -/
theorem test_sbc_V130 :
    result (load [0xE9#8, 0x21#8] [] { start with a := 0x12#8, flags := { start.flags with d := true, c := true } })
        (fun t => (t.a, t.flags, t.pc, t.out.cycles)) =
      some (0x91#8, { n := true, v := false, d := true, i := false, z := false, c := false }, 0x0602#16, 2) := by decide

/-- V140 of spec/96: `CMP #$FF`. -/
theorem test_cmp_V140 :
    result (load [0xC9#8, 0xFF#8] [] { start with a := 0x00#8 }) (fun t => (t.a, t.flags, t.pc, t.out.cycles)) =
      some (0x00#8, { n := false, v := false, d := false, i := false, z := false, c := false }, 0x0602#16, 2) := by decide

/-- V144 of spec/96: `CMP ($20),Y`. -/
theorem test_cmp_V144 :
    result (load [0xD1#8, 0x20#8] [(0x0020, 0xF0#8), (0x0021, 0x30#8), (0x3110, 0x43#8)] { start with a := 0x43#8, y := 0x20#8 })
        (fun t => (t.flags.z, t.flags.c, t.pc, t.out.cycles)) =
      some (true, true, 0x0602#16, 6) := by decide

/-- V147 of spec/96: `CPX $2000`. -/
theorem test_cpx_V147 :
    result (load [0xEC#8, 0x00#8, 0x20#8] [(0x2000, 0x00#8)] { start with x := 0xFF#8 })
        (fun t => (t.x, t.flags, t.pc, t.out.cycles)) =
      some (0xFF#8, { n := true, v := false, d := false, i := false, z := false, c := true }, 0x0603#16, 4) := by decide

/-- V149 of spec/96: `CPY $10`. -/
theorem test_cpy_V149 :
    result (load [0xC4#8, 0x10#8] [(0x0010, 0x02#8)] { start with y := 0x01#8 })
        (fun t => (t.y, t.flags, t.pc, t.out.cycles)) =
      some (0x01#8, { n := true, v := false, d := false, i := false, z := false, c := false }, 0x0602#16, 3) := by decide

/-- V151 of spec/96: `INC $10`. -/
theorem test_inc_V151 :
    result (load [0xE6#8, 0x10#8] [(0x0010, 0xFF#8)] { start with flags := { start.flags with c := true } })
        (fun t => (t.flags.z, t.flags.c, t.pc, t.mem.read 0x0010, t.out.cycles)) =
      some (true, true, 0x0602#16, 0x00#8, 5) := by decide

/-- V155 of spec/96: `INC $20FF,X`. -/
theorem test_inc_V155 :
    result (load [0xFE#8, 0xFF#8, 0x20#8] [(0x2100, 0x01#8)] { start with x := 0x01#8 })
        (fun t => (t.pc, t.mem.read 0x2100, t.out.cycles)) =
      some (0x0603#16, 0x02#8, 7) := by decide

/-- V156 of spec/96: `DEC $10`. -/
theorem test_dec_V156 :
    result (load [0xC6#8, 0x10#8] [(0x0010, 0x00#8)] start) (fun t => (t.flags.n, t.pc, t.mem.read 0x0010, t.out.cycles)) =
      some (true, 0x0602#16, 0xFF#8, 5) := by decide

/-- V161 of spec/96: `INX`. -/
theorem test_inx_V161 :
    result (load [0xE8#8] [] { start with x := 0xFF#8 }) (fun t => (t.x, t.flags.z, t.pc, t.out.cycles)) =
      some (0x00#8, true, 0x0601#16, 2) := by decide

/-- V164 of spec/96: `INY`. -/
theorem test_iny_V164 :
    result (load [0xC8#8] [] { start with y := 0x7F#8 }) (fun t => (t.y, t.flags.n, t.pc, t.out.cycles)) =
      some (0x80#8, true, 0x0601#16, 2) := by decide

/-- V165 of spec/96: `DEX`. -/
theorem test_dex_V165 :
    result (load [0xCA#8] [] { start with x := 0x00#8 }) (fun t => (t.x, t.flags.n, t.pc, t.out.cycles)) =
      some (0xFF#8, true, 0x0601#16, 2) := by decide

/-- V168 of spec/96: `DEY`. -/
theorem test_dey_V168 :
    result (load [0x88#8] [] { start with y := 0x80#8 }) (fun t => (t.y, t.pc, t.out.cycles)) =
      some (0x7F#8, 0x0601#16, 2) := by decide

/-- V171 of spec/96: `ASL A`. -/
theorem test_asl_V171 :
    result (load [0x0A#8] [] { start with a := 0x40#8, flags := { start.flags with c := true } })
        (fun t => (t.a, t.flags.n, t.flags.c, t.pc, t.out.cycles)) =
      some (0x80#8, true, false, 0x0601#16, 2) := by decide

/-- V175 of spec/96: `ASL $20FF,X`. -/
theorem test_asl_V175 :
    result (load [0x1E#8, 0xFF#8, 0x20#8] [(0x2100, 0xC0#8)] { start with x := 0x01#8 })
        (fun t => (t.flags.n, t.flags.c, t.pc, t.mem.read 0x2100, t.out.cycles)) =
      some (true, true, 0x0603#16, 0x80#8, 7) := by decide

/-- V178 of spec/96: `LSR A`. -/
theorem test_lsr_V178 :
    result (load [0x4A#8] [] { start with a := 0x80#8, flags := { start.flags with n := true, c := true } })
        (fun t => (t.a, t.flags.n, t.flags.c, t.pc, t.out.cycles)) =
      some (0x40#8, false, false, 0x0601#16, 2) := by decide

/-- V181 of spec/96: `LSR $2000`. -/
theorem test_lsr_V181 :
    result (load [0x4E#8, 0x00#8, 0x20#8] [(0x2000, 0xFF#8)] start)
        (fun t => (t.flags.c, t.pc, t.mem.read 0x2000, t.out.cycles)) =
      some (true, 0x0603#16, 0x7F#8, 6) := by decide

/-- V185 of spec/96: `ROL A`. -/
theorem test_rol_V185 :
    result (load [0x2A#8] [] { start with a := 0x00#8, flags := { start.flags with c := true } })
        (fun t => (t.a, t.flags.c, t.pc, t.out.cycles)) =
      some (0x01#8, false, 0x0601#16, 2) := by decide

/-- V190 of spec/96: `ROL $2000,X`. -/
theorem test_rol_V190 :
    result (load [0x3E#8, 0x00#8, 0x20#8] [(0x2001, 0x7F#8)] { start with x := 0x01#8, flags := { start.flags with c := true } })
        (fun t => (t.flags.n, t.flags.c, t.pc, t.mem.read 0x2001, t.out.cycles)) =
      some (true, false, 0x0603#16, 0xFF#8, 7) := by decide

/-- V192 of spec/96: `ROR A`. -/
theorem test_ror_V192 :
    result (load [0x6A#8] [] { start with a := 0x00#8, flags := { start.flags with c := true } })
        (fun t => (t.a, t.flags.n, t.flags.c, t.pc, t.out.cycles)) =
      some (0x80#8, true, false, 0x0601#16, 2) := by decide

/-- V196 of spec/96: `ROR $10,X`. -/
theorem test_ror_V196 :
    result (load [0x76#8, 0x10#8] [(0x0011, 0x80#8)] { start with x := 0x01#8, flags := { start.flags with c := false } })
        (fun t => (t.pc, t.mem.read 0x0011, t.out.cycles)) =
      some (0x0602#16, 0x40#8, 6) := by decide

/-- V27 of spec/96: `JMP ($10FF)`. -/
theorem test_jmp_V27 :
    result (load [0x6C#8, 0xFF#8, 0x10#8] [(0x1000, 0x12#8), (0x10FF, 0x34#8), (0x1100, 0x56#8)] start)
        (fun t => (t.pc, t.out.cycles)) =
      some (0x1234#16, 5) := by decide

/-- V199 of spec/96: `JMP $1234`. -/
theorem test_jmp_V199 :
    result (load [0x4C#8, 0x34#8, 0x12#8] [] start) (fun t => (t.pc, t.out.cycles)) =
      some (0x1234#16, 3) := by decide

/-- V203 of spec/96: `JSR $1000`. -/
theorem test_jsr_V203 :
    result (load [0x20#8, 0x00#8, 0x10#8] [] { start with pc := 0x06FE#16 })
        (fun t => (t.sp, t.pc, [t.mem.read 0x01FF, t.mem.read 0x01FE], t.out.cycles)) =
      some (0xFD#8, 0x1000#16, [0x07#8, 0x00#8], 6) := by decide

/-- V204 of spec/96: `JSR $1234`. -/
theorem test_jsr_V204 :
    result (load [0x20#8, 0x34#8, 0x12#8] [] { start with sp := 0x00#8 })
        (fun t => (t.sp, t.pc, [t.mem.read 0x0100, t.mem.read 0x01FF], t.out.cycles)) =
      some (0xFE#8, 0x1234#16, [0x06#8, 0x02#8], 6) := by decide

/-- V206 of spec/96: `RTS`. -/
theorem test_rts_V206 :
    result (load [0x60#8] [(0x01FE, 0xFF#8), (0x01FF, 0xFF#8)] { start with sp := 0xFD#8 })
        (fun t => (t.sp, t.pc, t.out.cycles)) =
      some (0xFF#8, 0x0000#16, 6) := by decide

/-- V207 of spec/96: `RTS`. -/
theorem test_rts_V207 :
    result (load [0x60#8] [(0x0100, 0x33#8), (0x0101, 0x12#8)] { start with sp := 0xFF#8 })
        (fun t => (t.sp, t.pc, t.out.cycles)) =
      some (0x01#8, 0x1234#16, 6) := by decide

/-- V209 of spec/96: `RTI`. -/
theorem test_rti_V209 :
    result (load [0x40#8] [(0x01FD, 0xFF#8), (0x01FE, 0x00#8), (0x01FF, 0x80#8)] { start with sp := 0xFC#8 })
        (fun t => (t.sp, t.flags, t.pc, t.out.cycles)) =
      some (0xFF#8, { n := true, v := true, d := true, i := true, z := true, c := true }, 0x8000#16, 6) := by decide

/-- V210 of spec/96: `RTI`. -/
theorem test_rti_V210 :
    result (load [0x40#8] [(0x01FD, 0x20#8), (0x01FE, 0x05#8), (0x01FF, 0x06#8), (0xFFFE, 0x00#8), (0xFFFF, 0x90#8)] { start with sp := 0xFC#8, flags := { start.flags with i := true }, lines := { start.lines with irqActive := [5] } })
        (fun t => (t.sp, t.flags.i, t.pc, [t.mem.read 0x01FF, t.mem.read 0x01FE, t.mem.read 0x01FD], t.out.outcomes)) =
      some (0xFC#8, true, 0x9000#16, [0x06#8, 0x05#8, 0x20#8], [.serviced .irq]) := by decide

/-- V211 of spec/96: `BRK`. -/
theorem test_brk_V211 :
    result (load [0x00#8, 0xEA#8] [(0xFFFE, 0x00#8), (0xFFFF, 0x90#8)] { start with flags := { start.flags with z := true, c := true } })
        (fun t => (t.sp, t.pc, t.out.accesses, t.out.outcomes, t.out.cycles)) =
      some (0xFC#8, 0x9000#16, [.read 0x0600#16 0x00#8, .write 0x01FF#16 0x06#8, .write 0x01FE#16 0x02#8, .write 0x01FD#16 0x33#8, .read 0xFFFE#16 0x00#8, .read 0xFFFF#16 0x90#8], [.brkExecuted], 7) := by decide

/-- V213 of spec/96: `BRK`. -/
theorem test_brk_V213 :
    result (load [0x00#8] [(0xFFFE, 0x34#8)] { start with pc := 0xFFFF#16 })
        (fun t => (t.sp, t.flags.i, t.pc, [t.mem.read 0x01FF, t.mem.read 0x01FE, t.mem.read 0x01FD], t.out.outcomes)) =
      some (0xFC#8, true, 0x0034#16, [0x00#8, 0x01#8, 0x30#8], [.brkExecuted]) := by decide

/-- V216 of spec/96: `BPL $0607`. -/
theorem test_bpl_V216 :
    result (load [0x10#8, 0x05#8] [] { start with flags := { start.flags with n := true } })
        (fun t => (t.pc, t.out.cycles)) =
      some (0x0602#16, 2) := by decide

/-- V239 of spec/96: `BPL $FFFE`. -/
theorem test_bpl_V239 :
    result (load [0x10#8, 0xFC#8] [] { start with pc := 0x0000#16 }) (fun t => (t.pc, t.out.cycles)) =
      some (0xFFFE#16, 4) := by decide

/-- V217 of spec/96: `BMI $0607`. -/
theorem test_bmi_V217 :
    result (load [0x30#8, 0x05#8] [] { start with flags := { start.flags with n := false } })
        (fun t => (t.pc, t.out.cycles)) =
      some (0x0602#16, 2) := by decide

/-- V218 of spec/96: `BMI $0607`. -/
theorem test_bmi_V218 :
    result (load [0x30#8, 0x05#8] [] { start with flags := { start.flags with n := true } })
        (fun t => (t.pc, t.out.cycles)) =
      some (0x0607#16, 3) := by decide

/-- V219 of spec/96: `BVC $0607`. -/
theorem test_bvc_V219 :
    result (load [0x50#8, 0x05#8] [] { start with flags := { start.flags with v := false } })
        (fun t => (t.pc, t.out.cycles)) =
      some (0x0607#16, 3) := by decide

/-- V220 of spec/96: `BVC $0607`. -/
theorem test_bvc_V220 :
    result (load [0x50#8, 0x05#8] [] { start with flags := { start.flags with v := true } })
        (fun t => (t.pc, t.out.cycles)) =
      some (0x0602#16, 2) := by decide

/-- V221 of spec/96: `BVS $0607`. -/
theorem test_bvs_V221 :
    result (load [0x70#8, 0x05#8] [] { start with flags := { start.flags with v := false } })
        (fun t => (t.pc, t.out.cycles)) =
      some (0x0602#16, 2) := by decide

/-- V222 of spec/96: `BVS $0607`. -/
theorem test_bvs_V222 :
    result (load [0x70#8, 0x05#8] [] { start with flags := { start.flags with v := true } })
        (fun t => (t.pc, t.out.cycles)) =
      some (0x0607#16, 3) := by decide

/-- V224 of spec/96: `BCC $0607`. -/
theorem test_bcc_V224 :
    result (load [0x90#8, 0x05#8] [] { start with flags := { start.flags with c := true } })
        (fun t => (t.pc, t.out.cycles)) =
      some (0x0602#16, 2) := by decide

/-- V237 of spec/96: `BCC $06FF`. -/
theorem test_bcc_V237 :
    result (load [0x90#8, 0xFD#8] [] { start with pc := 0x0700#16 }) (fun t => (t.pc, t.out.cycles)) =
      some (0x06FF#16, 4) := by decide

/-- V225 of spec/96: `BCS $0607`. -/
theorem test_bcs_V225 :
    result (load [0xB0#8, 0x05#8] [] { start with flags := { start.flags with c := false } })
        (fun t => (t.pc, t.out.cycles)) =
      some (0x0602#16, 2) := by decide

/-- V226 of spec/96: `BCS $0607`. -/
theorem test_bcs_V226 :
    result (load [0xB0#8, 0x05#8] [] { start with flags := { start.flags with c := true } })
        (fun t => (t.pc, t.out.cycles)) =
      some (0x0607#16, 3) := by decide

/-- V232 of spec/96: `BNE $0582`. -/
theorem test_bne_V232 :
    result (load [0xD0#8, 0x80#8] [] start) (fun t => (t.pc, t.out.cycles)) =
      some (0x0582#16, 4) := by decide

/-- V234 of spec/96: `BNE $0602`. -/
theorem test_bne_V234 :
    result (load [0xD0#8, 0x00#8] [] start) (fun t => (t.pc, t.out.cycles)) =
      some (0x0602#16, 3) := by decide

/-- V235 of spec/96: `BEQ $0701`. -/
theorem test_beq_V235 :
    result (load [0xF0#8, 0x02#8] [] { start with pc := 0x06FD#16, flags := { start.flags with z := true } })
        (fun t => (t.pc, t.out.cycles)) =
      some (0x0701#16, 4) := by decide

/-- V238 of spec/96: `BEQ $0004`. -/
theorem test_beq_V238 :
    result (load [0xF0#8, 0x05#8] [] { start with pc := 0xFFFD#16, flags := { start.flags with z := true } })
        (fun t => (t.pc, t.out.cycles)) =
      some (0x0004#16, 4) := by decide

/-- V240 of spec/96: `CLC`. -/
theorem test_clc_V240 :
    result (load [0x18#8] [] { start with flags := { start.flags with n := true, v := true, d := true, i := true, z := true, c := true } })
        (fun t => (t.flags, t.pc, t.out.cycles)) =
      some ({ n := true, v := true, d := true, i := true, z := true, c := false }, 0x0601#16, 2) := by decide

/-- V242 of spec/96: `SEC`. -/
theorem test_sec_V242 :
    result (load [0x38#8] [] { start with flags := { start.flags with c := false } })
        (fun t => (t.flags.c, t.pc, t.out.cycles)) =
      some (true, 0x0601#16, 2) := by decide

/-- V244 of spec/96: `CLI`. -/
theorem test_cli_V244 :
    result (load [0x58#8] [(0xFFFE, 0x00#8), (0xFFFF, 0x90#8)] { start with flags := { start.flags with i := true }, lines := { start.lines with irqActive := [5] } })
        (fun t => (t.sp, t.flags.i, t.pc, [t.mem.read 0x01FF, t.mem.read 0x01FE, t.mem.read 0x01FD], t.out.outcomes)) =
      some (0xFC#8, true, 0x9000#16, [0x06#8, 0x01#8, 0x20#8], [.serviced .irq]) := by decide

/-- V246 of spec/96: `SEI`. -/
theorem test_sei_V246 :
    result (load [0x78#8] [(0xFFFE, 0x00#8), (0xFFFF, 0x90#8)] { start with flags := { start.flags with i := false }, lines := { start.lines with irqActive := [5] } })
        (fun t => (t.flags.i, t.pc, t.out.cycles)) =
      some (true, 0x0601#16, 2) := by decide

/-- V247 of spec/96: `CLV`. -/
theorem test_clv_V247 :
    result (load [0xB8#8] [] { start with flags := { start.flags with v := true } })
        (fun t => (t.flags.v, t.pc, t.out.cycles)) =
      some (false, 0x0601#16, 2) := by decide

/-- V248 of spec/96: `CLD`. -/
theorem test_cld_V248 :
    result (load [0xD8#8] [] { start with flags := { start.flags with d := true } })
        (fun t => (t.flags.d, t.pc, t.out.cycles)) =
      some (false, 0x0601#16, 2) := by decide

/-- V249 of spec/96: `SED`. -/
theorem test_sed_V249 :
    result (load [0xF8#8] [] { start with flags := { start.flags with d := false } })
        (fun t => (t.flags.d, t.pc, t.out.cycles)) =
      some (true, 0x0601#16, 2) := by decide

/-- V250 of spec/96: `NOP`. -/
theorem test_nop_V250 :
    result (load [0xEA#8] [] { start with a := 0x12#8, x := 0x34#8, y := 0x56#8, flags := { start.flags with n := true, c := true } })
        (fun t => (t.pc, t.out.cycles)) =
      some (0x0601#16, 2) := by decide

/-- V255 of spec/96: `.byte $02`. -/
theorem test_unknown_V255 :
    result (load [0x02#8] [(0xFFFA, 0x00#8), (0xFFFB, 0x80#8)] { start with lines := { start.lines with nmiPending := true } })
        (fun t => (t.sp, t.pc, [t.mem.read 0x01FF, t.mem.read 0x01FE, t.mem.read 0x01FD], t.lines.nmiPending, t.out.outcomes)) =
      some (0xFC#8, 0x8000#16, [0x06#8, 0x01#8, 0x20#8], false, [.unknownOpcode 0x02#8 0x0600#16, .serviced .nmi]) := by decide

/-- V256 of spec/96: `.byte $02`. -/
theorem test_unknown_V256 :
    stops (load [0x02#8] [(0xFFFA, 0x00#8), (0xFFFB, 0x80#8)] { start with params := { Params.reference with unknownPolicy := .halt }, lines := { start.lines with nmiPending := true } }) = some (.unknownOpcode 0x02#8 0x0600#16) := by decide

/-! ## The environment, from the sequences of spec/95 -/

/-- S5 row 1: reset takes PC from 0xFFFC and sets I; the other values are the draw's. -/
theorem test_reset_S5 :
    (fun t : State => (t.pc, t.flags.i, t.a, t.run, t.out.cycles))
      (applyEnv (.reset { Draws.zero with a := 0x5A#8 })
        (storeBlock 0xFFFC#16 [0x00#8, 0x06#8] (State.powerOn Params.reference [] Draws.zero))) =
      (0x0600#16, true, 0x5A#8, .running, 7) := by decide

/-- S2 row 3: the service acknowledges an auto-acknowledge source. -/
theorem test_autoAck_S2 :
    result (load [0x58#8] [(0xFFFF, 0x90#8)]
        { start with params := { Params.reference with irqAutoAck := [7] }, lines := { start.lines with irqActive := [5, 7] } })
        (fun t => (t.pc, t.lines.irqActive)) =
      some (0x9000#16, [5]) := by decide

/-- S3 rows 1 to 8: a second raise without a clear is no edge; a clear and a raise is one. -/
theorem test_nmiEdge_S3 :
    (applyEnv (.line .nmiRaise) { start with lines := { start.lines with nmiLine := true } }).lines.nmiPending = false ∧
    (applyEnv (.line .nmiRaise) (applyEnv (.line .nmiClear) { start with lines := { start.lines with nmiLine := true } })).lines.nmiPending =
      true := by decide

/-- V135 of spec/96: D is ignored where DECIMAL is absent. -/
theorem test_decimal_absent_V135 :
    result (load [0x69#8, 0x46#8] []
        { start with a := 0x58#8, flags := { start.flags with d := true, c := true },
                     params := { Params.reference with decimal := .absent } })
        (fun t => (t.a, t.flags.n, t.flags.v, t.flags.c)) = some (0x9F#8, true, true, false) := by decide

/-! ## Witnesses: concrete states and operands that meet the hypotheses of the statements -/

/-- A platform with a device window at 0xD000 to 0xDFFF. -/
def windowed : State := { start with params := { Params.reference with hooked := [⟨0xD000, 0xDFFF⟩] } }

/-- Every flag set. -/
def allFlags : State := { start with flags := ⟨true, true, true, true, true, true⟩ }

/-- An NMI latched. -/
def nmiLatched : State := { start with lines := { start.lines with nmiLine := true, nmiPending := true } }

/-- Source 5 active and enabled. -/
def irqWaiting : State := { start with lines := { start.lines with irqActive := [5] } }

/-- `PortAnswersTheLastByteWritten`: plain RAM beside the window and at both ends of memory, the window's ends, and a block that
wraps. -/
theorem witness_PortAnswersTheLastByteWritten :
    (plainRam windowed.params 0x0000#16 = true ∧ plainRam windowed.params 0xFFFF#16 = true ∧
      plainRam windowed.params 0xCFFF#16 = true ∧ plainRam windowed.params 0xE000#16 = true) ∧
    (plainRam windowed.params 0xD000#16 = false ∧ plainRam windowed.params 0xDFFF#16 = false) ∧
    ([0x11#8, 0x22#8].length ≤ 65536 ∧ [0x11#8, 0x22#8][1]? = some 0x22#8 ∧
      plainRam windowed.params (0xFFFF#16 + BitVec.ofNat 16 1) = true) := by decide

theorem witness_AccessesOutsidePlainRamDrawOnce : plainRam windowed.params 0xD000#16 = false := by decide

theorem witness_PushesLieDownwardAndWrap :
    (∀ p : Byte, plainRam windowed.params (stackAddr p) = true) ∧
    (List.replicate 256 0x5A#8).length = 256 ∧ (List.replicate 256 0x5A#8)[255]? = some 0x5A#8 :=
  ⟨by decide +kernel, by rw [List.length_replicate], by rw [List.getElem?_replicate]; rfl⟩

theorem witness_OperandValueIsOneReadAtE :
    plainRam windowed.params (resolve (.indirectIndexed 0x20#8) (load [] [(0x20, 0xFF#8), (0x21, 0xCF#8)] windowed)).addr = true := by
  decide

theorem witness_PullUndoesPush : plainRam windowed.params (stackAddr windowed.sp) = true := by decide

/-- `AdcAddsWithCarry` and `SbcSubtractsWithBorrow`: both modes. -/
theorem witness_AdcAddsWithCarry :
    decimalMode start.params start.flags = false ∧ decimalMode allFlags.params allFlags.flags = true ∧
    decimalMode { Params.reference with decimal := .absent } allFlags.flags = false := by decide

theorem witness_SbcSubtractsWithBorrow :
    decimalMode start.params start.flags = false ∧ decimalMode allFlags.params allFlags.flags = true ∧
    sbcDiff 0x12 0x21 1 < 0 ∧ ¬sbcDiff 0x21 0x12 1 < 0 := by decide

theorem witness_DecimalModeComputesDecimalNumbers : ValidBcd 0x99#8 ∧ ValidBcd 0x00#8 := by simp only [ValidBcd]; decide

theorem witness_NineRotationsRestoreAAndC :
    (Instr.rol .acc = .rol .acc ∨ Instr.rol .acc = .ror .acc) ∧ (Instr.ror .acc = .rol .acc ∨ Instr.ror .acc = .ror .acc) := by
  decide

theorem witness_JmpSetsPcWithThePageWrap :
    (lo 0x10FF#16 = 0xFF#8 ∧ lo 0x10FE#16 ≠ 0xFF#8) ∧
    plainRam windowed.params 0x10FF#16 = true ∧ plainRam windowed.params (word (hi 0x10FF#16) 0x00#8) = true := by decide

theorem witness_RtsPullsAndAddsOne :
    plainRam windowed.params (stackAddr (windowed.sp + 1#8)) = true ∧
    plainRam windowed.params (stackAddr (windowed.sp + 2#8)) = true := by decide

theorem witness_RtiRestoresFlagsAndPc :
    plainRam windowed.params (stackAddr (windowed.sp + 2#8)) = true ∧
    plainRam windowed.params (stackAddr (windowed.sp + 3#8)) = true := by decide

theorem witness_BrkTakesTheInterruptSequence :
    (∃ t, exec .brk nmiLatched = .next t ∧ t.lines.nmiPending = true) ∧
    (∃ t, exec .brk irqWaiting = .next t ∧ t.lines.nmiPending = false) := ⟨⟨_, rfl, rfl⟩, ⟨_, rfl, rfl⟩⟩

/-- `BranchesTestOneFlag`: each flag at each value. -/
theorem witness_BranchesTestOneFlag :
    (start.flags.n = false ∧ start.flags.v = false ∧ start.flags.c = false ∧ start.flags.z = false) ∧
    (allFlags.flags.n = true ∧ allFlags.flags.v = true ∧ allFlags.flags.c = true ∧ allFlags.flags.z = true) := by decide

/-- `BranchesAfterACompare`: the three compares, and operands below, equal to and above the register. -/
theorem witness_BranchesAfterACompare :
    ((Instr.cmp = Instr.cmp ∧ 0x80#8 = { start with a := 0x80#8 }.a) ∧ (Instr.cpx = Instr.cpx ∧ 0x80#8 = { start with x := 0x80#8 }.x) ∧
      (Instr.cpy = Instr.cpy ∧ 0x80#8 = { start with y := 0x80#8 }.y)) ∧
    (0x80#8).toNat ≥ (readSource (.imm 0x7F#8) start).byte.toNat ∧ 0x80#8 = (readSource (.imm 0x80#8) start).byte ∧
    (0x80#8).toNat < (readSource (.imm 0x81#8) start).byte.toNat ∧
    ((0x80#8).toNat + 256 - (readSource (.imm 0x81#8) start).byte.toNat) % 256 ≥ 128 :=
  ⟨⟨⟨rfl, rfl⟩, ⟨rfl, rfl⟩, ⟨rfl, rfl⟩⟩, by decide, by decide, by decide, by decide⟩

theorem witness_RtsUndoesJsr :
    ∃ t t', exec (.jsr 0x1000#16) start = .next t ∧ plainRam start.params (stackAddr start.sp) = true ∧
      plainRam start.params (stackAddr (start.sp - 1#8)) = true ∧ t' = t.setA 0x55#8 ∧ t'.sp = t.sp ∧ t'.params = t.params ∧
      t'.mem.read (stackAddr start.sp).toNat = t.mem.read (stackAddr start.sp).toNat ∧
      t'.mem.read (stackAddr (start.sp - 1#8)).toNat = t.mem.read (stackAddr (start.sp - 1#8)).toNat :=
  ⟨_, _, rfl, by decide, by decide, rfl, rfl, rfl, rfl, rfl⟩

theorem witness_RtiUndoesAnInterrupt :
    (∃ t, exec .brk start = .next t ∧ 0x0602#16 = start.pc + 2#16 ∧ t.sp = t.sp) ∧
    (∃ t, t = takeInterrupt 0x1234#16 false vecNmi start ∧ t.params = start.params) ∧
    (∀ k : Byte, k.toNat < 3 → plainRam start.params (stackAddr (start.sp - k)) = true) :=
  ⟨⟨_, rfl, by decide, rfl⟩, ⟨_, rfl, rfl⟩, by decide +kernel⟩

theorem witness_UnknownBytesSkipOrHalt :
    start.params.unknownPolicy = .skip ∧ { Params.reference with unknownPolicy := .halt }.unknownPolicy = .halt ∧
    start.run = .running ∧ 0x02#8 ∈ unknownOpcodes ∧ 0xFF#8 ∈ unknownOpcodes ∧ (load [0x02#8] [] start).portByte 0x0600#16 = 0x02#8 := by
  decide

theorem witness_DecodeOfEncodeIsTheInstruction :
    Instr.wellFormed (.lda (.mem (.absoluteY 0xFFFF#16))) = true ∧ Instr.wellFormed (.unknown 0x02#8) = true := by decide

theorem witness_EncodeOfDecodeIsTheBytes :
    decode [0xB9#8, 0xFF#8, 0xFF#8, 0x00#8] = .ok (.lda (.mem (.absoluteY 0xFFFF#16))) [0x00#8] ∧
    3 ≤ [0xB9#8, 0xFF#8, 0xFF#8].length := by decide

/-- `StepRunsTheDecodedInstruction`: an instruction whose bytes lie at 0xFFFF, 0x0000 and 0x0001 (V28). -/
theorem witness_StepRunsTheDecodedInstruction :
    (fun s : State => s.run = .running ∧ plainRam s.params s.pc = true ∧ plainRam s.params (s.pc + 1#16) = true ∧
        plainRam s.params (s.pc + 2#16) = true ∧
        decode [s.mem.read s.pc.toNat, s.mem.read (s.pc + 1#16).toNat, s.mem.read (s.pc + 2#16).toNat] =
          .ok (.lda (.mem (.absolute 0x1234#16))) [])
      (load [0xAD#8, 0x34#8, 0x12#8] [] { windowed with pc := 0xFFFF#16 }) := by decide

theorem witness_OnlyResetLeavesIdle :
    (State.powerOn Params.reference [] Draws.zero).run = .idle ∧ ∃ t, step (load [0xEA#8] [] start) = .next t := ⟨rfl, _, rfl⟩

theorem witness_StepsCompleteButForIdleAndHalt : ∀ op, Instr.nop ≠ .unknown op := by simp

/-- `BoundaryServicesNmiThenIrq`: each of the three outcomes, the last one masked by I and with the active source disabled. -/
theorem witness_BoundaryServicesNmiThenIrq :
    nmiLatched.lines.nmiPending = true ∧
    (irqWaiting.lines.nmiPending = false ∧ irqWaiting.flags.i = false ∧ 5 ∈ irqWaiting.lines.irqActive ∧
      5 ∉ irqWaiting.params.irqDisabled) ∧
    allFlags.flags.i = true ∧ (∀ q, q ∈ irqWaiting.lines.irqActive → q ∈ { Params.reference with irqDisabled := [5] }.irqDisabled) := by
  decide

theorem witness_ServicePushesPcAndStatus :
    (vecNmi = 0xFFFA#16 ∨ vecNmi = 0xFFFE#16) ∧ (vecIrq = 0xFFFA#16 ∨ vecIrq = 0xFFFE#16) ∧
    (nmiLatched.lines.nmiPending || (nmiLatched.irqRequest && !nmiLatched.flags.i)) = true ∧
    (irqWaiting.lines.nmiPending || (irqWaiting.irqRequest && !irqWaiting.flags.i)) = true := by decide

/-- `InterruptDisableIsSeenAtOnce`: CLI clears I and SEI sets it with source 5 active. -/
theorem witness_InterruptDisableIsSeenAtOnce :
    (∃ u, exec .cli { irqWaiting with flags := allFlags.flags } = .next u ∧ u.lines.nmiPending = false ∧ u.irqRequest = true ∧
      u.flags.i = false) ∧
    (∃ u, exec .sei irqWaiting = .next u ∧ u.lines.nmiPending = false ∧ u.irqRequest = true ∧ u.flags.i = true) ∧
    irqWaiting.lines.nmiPending = false ∧ irqWaiting.irqRequest = true :=
  ⟨⟨_, rfl, rfl, rfl, rfl⟩, ⟨_, rfl, rfl, rfl, rfl⟩, rfl, rfl⟩

/-- `AccessesOfAStepInOrder`: a step with an NMI service, with an IRQ service, and with none. -/
theorem witness_AccessesOfAStepInOrder :
    (∃ t, step (load [0xEA#8] [] nmiLatched) = .next t ∧ t.out.outcomes = [.serviced .nmi]) ∧
    (∃ t, step (load [0xEA#8] [] irqWaiting) = .next t ∧ t.out.outcomes = [.serviced .irq]) ∧
    (∃ t, step (load [0xEA#8] [] start) = .next t ∧ t.out.outcomes = []) := ⟨⟨_, rfl, rfl⟩, ⟨_, rfl, rfl⟩, ⟨_, rfl, rfl⟩⟩

/-- `StepCyclesAreAtMostFourteen`: the bound is met by BRK with an NMI behind it (S4 row 8). -/
theorem witness_StepCyclesAreAtMostFourteen :
    nmiLatched.params.unknownCycles ≤ 7 ∧ ∃ t, step (load [0x00#8] [] nmiLatched) = .next t ∧ t.out.cycles = 14 :=
  ⟨by decide, _, rfl, rfl⟩

theorem witness_PcAdvancesBySize :
    (∀ op, Instr.beq 0x80#8 ≠ .unknown op) ∧ ¬SetsPc (.beq 0x80#8) start ∧ ∃ t, exec (.beq 0x80#8) { start with pc := 0xFFFF#16 } = .next t :=
  ⟨by simp, by simp [SetsPc, start, State.reset], _, rfl⟩

theorem witness_FlagsChangeOnlyWhereListed :
    (¬MayChangeC .nop ∧ ¬MayChangeI .nop ∧ ¬MayChangeD .nop ∧ ¬MayChangeV .nop ∧ ¬MayChangeZN .nop) ∧
    ∃ t, exec .nop allFlags = .next t :=
  ⟨by simp [MayChangeC, MayChangeI, MayChangeD, MayChangeV, MayChangeZN, Instr.mnemonic], _, rfl⟩

/-- `InstructionsWriteMemoryOnlyWhereListed`: the addresses beside the one that STA writes. -/
theorem witness_InstructionsWriteMemoryOnlyWhereListed :
    (∃ t, exec (.sta (.absolute 0x1234#16)) start = .next t) ∧
    AccessAt.w 0x1233#16 ∉ instrAccesses (.sta (.absolute 0x1234#16)) start ∧
    AccessAt.w 0x1235#16 ∉ instrAccesses (.sta (.absolute 0x1234#16)) start := ⟨⟨_, rfl⟩, by decide, by decide⟩

theorem witness_StepKeepsTheCanonicalForms : Canonical (load [0x48#8] [] irqWaiting) ∧ ∃ t, step (load [0x48#8] [] irqWaiting) = .next t :=
  ⟨by simp only [Canonical]; decide, _, rfl⟩

theorem witness_EnvironmentKeepsTheCanonicalForms : Canonical (load [0x48#8] [] irqWaiting) := by simp only [Canonical]; decide

theorem witness_CanonicalMemoriesAreDetermined :
    Canonical (load [0x48#8] [] irqWaiting) ∧ Canonical (load [0x48#8] [] start) ∧ SameMemory (load [0x48#8] [] irqWaiting) (load [0x48#8] [] start) :=
  ⟨by simp only [Canonical]; decide, by simp only [Canonical]; decide, fun _ => rfl⟩

theorem witness_ResetLoadsTheVectorAndSetsI :
    (plainRam windowed.params 0xFFFC#16 = true ∧ plainRam windowed.params 0xFFFD#16 = true ∧ start.params.hooked = []) ∧
    start.params.resetNmi = .any ∧ { Params.reference with resetNmi := .clear }.resetNmi = .clear ∧
    { Params.reference with resetNmi := .keep }.resetNmi = .keep := by decide

theorem witness_NmiIsLatchedOncePerEdge :
    start.lines.nmiLine = false ∧ nmiLatched.lines.nmiLine = true ∧ nmiLatched.params.hooked = [] ∧ nmiLatched.lines.nmiPending = true ∧
    start.lines.nmiPending = false := by
  decide

theorem witness_IrqSourcesAreASet :
    (∃ q, LineOp.activate 5 = .activate q ∨ LineOp.activate 5 = .deactivate q) ∧
    (∃ q, LineOp.deactivate 5 = .activate q ∨ LineOp.deactivate 5 = .deactivate q) := ⟨⟨5, .inl rfl⟩, ⟨5, .inr rfl⟩⟩

end Sys2Proof.Tests
end

