-- ==== Sys2Proof/Proofs/Scope.lean ====
section
/-! PROOFS. The shared operations of `spec/00_scope.md`: the word reads (R8), the stack helpers (R9) and the status byte (R11). -/

namespace Sys2Proof.Machine

open Sys2Proof.Safety

/-! ## Word reads -/

theorem toNat_zeroPageAddr (p : Byte) : (zeroPageAddr p).toNat = p.toNat := by
  simp [zeroPageAddr, toNat_word]

/-- The next address inside the page of `a`, where `ReadWordPageWrap` reads its high byte (R8). -/
theorem toNat_nextInPage (a : Word) :
    (word (hi a) (lo a + 1#8)).toNat = a.toNat / 256 * 256 + (a.toNat % 256 + 1) % 256 := by
  rw [toNat_word, toNat_hi, BitVec.toNat_add, toNat_lo, Nat.mul_comm]
  rfl

/-- The word is little-endian, and its high byte is read in the state that the low byte's read leaves. -/
theorem toNat_readPair (al ah : Word) (s : State) :
    (readPair al ah s).1.toNat = (s.portByte al).toNat + 256 * ((memRead al s).2.portByte ah).toNat := by
  simp only [readPair, memRead_byte, toNat_word, Nat.add_comm]

/-- Settles O3: the three reads are `readPair` at addresses that differ in the high byte's only. -/
theorem wordReadsAreTwoByteReadsLowByteFirst : Obligations.WordReadsAreTwoByteReadsLowByteFirst := by
  refine ⟨fun a s => ?word, fun p s => ?zeroPage, fun a s => ?pageWrap⟩
  case word =>
    exact ⟨a + 1#16, BitVec.toNat_add a 1#16, toNat_readPair _ _ s, readPair_accesses _ _ s⟩
  case zeroPage =>
    have hnext : (zeroPageAddr (p + 1#8)).toNat = (p.toNat + 1) % 256 := by
      rw [toNat_zeroPageAddr, BitVec.toNat_add]
      rfl
    exact ⟨zeroPageAddr p, zeroPageAddr (p + 1#8), toNat_zeroPageAddr p, hnext, toNat_readPair _ _ s, readPair_accesses _ _ s⟩
  case pageWrap =>
    exact ⟨word (hi a) (lo a + 1#8), toNat_nextInPage a, toNat_readPair _ _ s, readPair_accesses _ _ s⟩

/-! ## The stack helpers -/

theorem push8_stored (v : Byte) (s : State) : Stored (stackAddr s.sp) v s (push8 v s) := by
  simp [Stored, push8_read]

theorem push8_sameMemoryOutside (v : Byte) (s : State) : SameMemoryOutside [stackAddr s.sp] s (push8 v s) := by
  intro a ha
  have hne : a ≠ stackAddr s.sp := by simpa using ha
  simp [push8_read, hne]

/-- Settles O4, operation by operation; `Push16` is two pushes by definition. -/
theorem stackHelpersStayInPageOne : Obligations.StackHelpersStayInPageOne := by
  refine ⟨fun v s => ?push8, fun s => ?pull8, fun w s => rfl, fun s => ⟨?pull16, rfl⟩⟩
  case push8 =>
    have hsp : (push8 v s).sp.toNat = (s.sp.toNat + 255) % 256 := by
      rw [push8_sp]
      bv_omega
    exact ⟨stackAddr s.sp, toNat_stackAddr s.sp, push8_stored v s, push8_sameMemoryOutside v s, hsp, push8_accesses v s⟩
  case pull8 =>
    have hsp : (s.sp + 1#8).toNat = (s.sp.toNat + 1) % 256 := BitVec.toNat_add s.sp 1#8
    exact ⟨stackAddr (s.sp + 1#8), by rw [toNat_stackAddr, hsp], pull8_byte s, by rw [pull8_sp, hsp], pull8_mem s,
      pull8_accesses s⟩
  case pull16 => simp only [pull16, toNat_word, Nat.add_comm]

/-! ## The status byte -/

/-- The bits of P from bit 0 up: C Z I D b 1 V N (R11). -/
theorem statusByte_getLsbD (b : Bool) (f : Flags) (k : Fin 8) :
    (statusByte b f).getLsbD k = [f.c, f.z, f.i, f.d, b, true, f.v, f.n][k] := by
  obtain ⟨n, v, d, i, z, c⟩ := f
  revert k b n v d i z c
  decide

/-- Settles O6: a formed byte has its bits in R11's places and loads back to its flags; a loaded byte gives its bits by definition. -/
theorem statusByteLayout : Obligations.StatusByteLayout := by
  refine ⟨fun b f => ?formed, fun v => ⟨rfl, rfl, rfl, rfl, rfl, rfl⟩⟩
  have bit := statusByte_getLsbD b f
  exact ⟨bit 7, bit 6, bit 5, bit 4, bit 3, bit 2, bit 1, bit 0, loadStatus_statusByte b f⟩

end Sys2Proof.Machine
end

