-- ==== Sys2Proof/Proofs/State.lean ====
section
/-! PROOFS. The registers and flags of `spec/10_state.md`: where PC goes (R25), which instructions write which flag (R28 to R34),
the run state (R36), and the state after reset (R40). -/

namespace Sys2Proof.Machine

open Sys2Proof.Safety

/-! ## The program counter -/

theorem retire_pc_of_pc_eq {i : Instr} {crossed : Bool} {s t : State} (h : t.pc = s.pc) :
    (retire i crossed t).pc = nextPc i s := by
  rw [retire_pc, nextPc_congr h]

theorem shiftTarget_pc (i : Instr) (t : Target) (f : Byte → Shifted) (s : State) :
    (shiftTarget i t f s).pc = nextPc i s := by
  cases t with
  | acc => exact retire_pc_of_pc_eq rfl
  | mem m => exact modifyByte_pc _ _ _ _ _

theorem branchIf_pc_of_not {i : Instr} {cond : Bool} {d : Byte} {s : State} (h : cond = false) :
    (branchIf i cond d s).pc = nextPc i s := by
  subst h
  rfl

/-- NEXT is where every instruction but the PC-setting ones ends: by its shape for a store, a modify, a shift and a branch, and
for the others because the state that `retire` ends still has PC at the opcode byte. -/
theorem exec_pc {i : Instr} {s t : State} (hlegal : ∀ op, i ≠ .unknown op) (hpc : ¬SetsPc i s) (h : exec i s = .next t) :
    t.pc = nextPc i s := by
  cases i
  case unknown op => exact absurd rfl (hlegal op)
  case jmp | jsr | rts | rti | brk => exact absurd trivial hpc
  all_goals obtain rfl := Host.Outcome.next.inj h
  case sta | stx | sty => exact storeByte_pc _ _ _ _
  case inc | dec => exact modifyByte_pc _ _ _ _ _
  case asl | lsr | rol | ror => exact shiftTarget_pc _ _ _ _
  case bpl | bmi | bvc | bvs | bcc | bcs | bne | beq => exact branchIf_pc_of_not (by simpa [SetsPc] using hpc)
  all_goals exact retire_pc_of_pc_eq (by simp)

/-- Settles O49: NEXT is PC plus the size modulo 65536. -/
theorem pcAdvancesBySize : Obligations.PcAdvancesBySize := by
  intro i s t hlegal hpc h
  rw [exec_pc hlegal hpc h, toNat_nextPc]

/-! ## The flags -/

theorem shiftTarget_flags (i : Instr) (t : Target) (f : Byte → Shifted) (s : State) :
    ∃ v, (shiftTarget i t f s).flags = s.flags.setShift (f v) := by
  cases t with
  | acc => exact ⟨s.a, rfl⟩
  | mem m => exact ⟨(readMem m s).byte, modifyByte_flags _ _ _ _ _⟩

theorem execUnknown_flags {op : Byte} {s t : State} (h : execUnknown op s = .next t) : t.flags = s.flags := by
  unfold execUnknown at h
  split at h
  · cases h
  · cases h
    rfl

/-- Between `f` and `g` no flag differs but those whose rule lists `i` as a writer (R28 to R31, R33, R34). -/
def WritesOnlyListed (i : Instr) (f g : Flags) : Prop :=
  (¬MayChangeC i → g.c = f.c) ∧ (¬MayChangeI i → g.i = f.i) ∧ (¬MayChangeD i → g.d = f.d) ∧
    (¬MayChangeV i → g.v = f.v) ∧ (¬MayChangeZN i → g.z = f.z ∧ g.n = f.n)

namespace WritesOnlyListed

/-- A rule lists an instruction when the search of its list for the mnemonic succeeds. -/
theorem listed {i : Instr} {l : List (Option Mnemonic)} (h : l.contains i.mnemonic = true) : i.mnemonic ∈ l :=
  List.contains_iff_mem.1 h

variable {i : Instr} (f : Flags)

theorem refl : WritesOnlyListed i f f := ⟨fun _ => rfl, fun _ => rfl, fun _ => rfl, fun _ => rfl, fun _ => ⟨rfl, rfl⟩⟩

theorem setC (b : Bool) (hC : MayChangeC i) : WritesOnlyListed i f { f with c := b } :=
  ⟨(absurd hC ·), fun _ => rfl, fun _ => rfl, fun _ => rfl, fun _ => ⟨rfl, rfl⟩⟩

theorem setI (b : Bool) (hI : MayChangeI i) : WritesOnlyListed i f { f with i := b } :=
  ⟨fun _ => rfl, (absurd hI ·), fun _ => rfl, fun _ => rfl, fun _ => ⟨rfl, rfl⟩⟩

theorem setD (b : Bool) (hD : MayChangeD i) : WritesOnlyListed i f { f with d := b } :=
  ⟨fun _ => rfl, fun _ => rfl, (absurd hD ·), fun _ => rfl, fun _ => ⟨rfl, rfl⟩⟩

theorem setV (b : Bool) (hV : MayChangeV i) : WritesOnlyListed i f { f with v := b } :=
  ⟨fun _ => rfl, fun _ => rfl, fun _ => rfl, (absurd hV ·), fun _ => ⟨rfl, rfl⟩⟩

theorem setZN (v : Byte) (hZN : MayChangeZN i) : WritesOnlyListed i f (f.setZN v) :=
  ⟨fun _ => rfl, fun _ => rfl, fun _ => rfl, fun _ => rfl, (absurd hZN ·)⟩

theorem setShift (r : Shifted) (hC : MayChangeC i) (hZN : MayChangeZN i) : WritesOnlyListed i f (f.setShift r) :=
  ⟨(absurd hC ·), fun _ => rfl, fun _ => rfl, fun _ => rfl, (absurd hZN ·)⟩

theorem compare (reg m : Byte) (hC : MayChangeC i) (hZN : MayChangeZN i) : WritesOnlyListed i f (f.compare reg m) :=
  ⟨(absurd hC ·), fun _ => rfl, fun _ => rfl, fun _ => rfl, (absurd hZN ·)⟩

theorem bitTest (a m : Byte) (hV : MayChangeV i) (hZN : MayChangeZN i) : WritesOnlyListed i f (f.bitTest a m) :=
  ⟨fun _ => rfl, fun _ => rfl, fun _ => rfl, (absurd hV ·), (absurd hZN ·)⟩

theorem setArith (r : AluResult) (hC : MayChangeC i) (hV : MayChangeV i) (hZN : MayChangeZN i) :
    WritesOnlyListed i f (f.setArith r) :=
  ⟨(absurd hC ·), fun _ => rfl, fun _ => rfl, (absurd hV ·), (absurd hZN ·)⟩

/-- PLP and RTI replace all six flags, and every rule lists them. -/
theorem replaced {f g : Flags} (h : i = .plp ∨ i = .rti) : WritesOnlyListed i f g := by
  rcases h with rfl | rfl <;>
    exact ⟨(absurd (listed rfl) ·), (absurd (listed rfl) ·), (absurd (listed rfl) ·), (absurd (listed rfl) ·), (absurd (listed rfl) ·)⟩

/-- The flags after an instruction are one of the model's flag updates of the flags before, and the rules of the flags that
the update writes list the instruction. -/
theorem of_exec {s t : State} (h : exec i s = .next t) : WritesOnlyListed i s.flags t.flags := by
  cases i
  case unknown op => exact execUnknown_flags h ▸ .refl _
  all_goals obtain rfl := Host.Outcome.next.inj h
  case asl t | lsr t | rol t | ror t =>
    obtain ⟨v, hv⟩ := shiftTarget_flags _ t _ s
    exact hv ▸ .setShift _ _ (listed rfl) (listed rfl)
  all_goals simp only [retire_flags, retireTo_flags, State.setZN_flags, State.setFlags_flags, State.setA_flags, State.setX_flags,
    State.setY_flags, State.setSp_flags, State.signal_flags, readSource_flags, readMem_flags, storeByte_flags, modifyByte_flags,
    branchIf_flags, push8_flags, push16_flags, pull8_flags, pull16_flags, takeInterrupt_flags, resolveJump_flags]
  case lda | ldx | ldy | tax | tay | txa | tya | tsx | pla | and | ora | eor | inc | dec | inx | iny | dex | dey =>
    exact .setZN _ _ (listed rfl)
  case bit => exact .bitTest _ _ _ (listed rfl) (listed rfl)
  case adc | sbc => exact .setArith _ _ (listed rfl) (listed rfl) (listed rfl)
  case cmp | cpx | cpy => exact .compare _ _ _ (listed rfl) (listed rfl)
  case clc | sec => exact .setC _ _ (listed rfl)
  case cli | sei | brk => exact .setI _ _ (listed rfl)
  case cld | sed => exact .setD _ _ (listed rfl)
  case clv => exact .setV _ _ (listed rfl)
  case plp => exact .replaced (.inl rfl)
  case rti => exact .replaced (.inr rfl)
  all_goals exact .refl _

end WritesOnlyListed

/-- Settles O50: the statement is `WritesOnlyListed` of the flags before and after. -/
theorem flagsChangeOnlyWhereListed : Obligations.FlagsChangeOnlyWhereListed := fun _ _ _ => WritesOnlyListed.of_exec

/-! ## The run state -/

theorem step_idle {s : State} (h : s.run = .idle) : step s = .fault .idle := by
  simp [step, h]

/-- The fetch, the instruction part and the boundary evaluation each leave `run_state` alone. -/
theorem step_keeps_run {s t : State} (h : step s = .next t) : t.run = s.run := by
  obtain ⟨-, u, hu, rfl⟩ := step_next h
  rw [boundary_run, (exec_keeps hu).run, fetch_run, State.beginOutput_run]

theorem storeBlock_run (base : Word) (bytes : List Byte) (s : State) : (storeBlock base bytes s).run = s.run := by
  rw [storeBlock_frame, State.setMem_run]

/-- Settles O42, operation by operation. -/
theorem onlyResetLeavesIdle : Obligations.OnlyResetLeavesIdle := by
  refine ⟨fun s => step_idle, fun s t h => ?step, fun s op => rfl, fun s base bytes => storeBlock_run base bytes s,
    fun s d => envReset_run d s⟩
  have hrun : s.run = .running := (step_next h).1
  exact ⟨hrun, (step_keeps_run h).trans hrun⟩

/-! ## The state after reset -/

/-- Settles O54: memory and the set of active sources are both empty after reset. -/
theorem resetHasTheCanonicalForms : Obligations.ResetHasTheCanonicalForms := ⟨rfl, rfl⟩

end Sys2Proof.Machine
end

