-- ==== Sys2Proof/Proofs/Memory.lean ====
section
/-! PROOFS. Memory and the port to it (`spec/20_memory.md`): plain RAM and the free answers outside it (R62, R65), the bulk load (R64),
the accesses of a step in order (R54, R115) and the memory that they can change, and the canonical forms (log entries 1 and 7). -/

namespace Sys2Proof.Machine

open Sys2Proof.Safety

/-! ## The canonical forms -/

theorem Memory.read_above {m : Memory} {b a : Nat} (h : Memory.risingFrom b m = true) (ha : 65536 ≤ a) :
    Memory.read m a = Memory.unlisted := by
  induction m generalizing b with
  | nil => rfl
  | cons c m ih =>
    obtain ⟨k, v⟩ := c
    simp only [Memory.risingFrom, Bool.and_eq_true, decide_eq_true_eq] at h
    obtain ⟨⟨⟨-, hk⟩, -⟩, hm⟩ := h
    have hne : k ≠ a := by omega
    rw [Memory.read_cons, if_neg hne, ih hm]

/-- Settles O55: canonical memories read alike past the last address too, so they are equal by extensionality. -/
theorem canonicalMemoriesAreDetermined : Obligations.CanonicalMemoriesAreDetermined := by
  rintro s t ⟨hs, -⟩ ⟨ht, -⟩ hsame
  refine Memory.ext ht hs fun a => ?_
  by_cases ha : a < 65536
  · simpa [Nat.mod_eq_of_lt ha] using hsame (BitVec.ofNat 16 a)
  · have ha : 65536 ≤ a := Nat.le_of_not_lt ha
    rw [Memory.read_above ht ha, Memory.read_above hs ha]

theorem canonical_fetch {s : State} (h : Canonical s) : Canonical (fetch s.beginOutput).state := by
  obtain ⟨hmem, hirq⟩ := h
  exact ⟨by rwa [fetch_mem], linesKept_wf (fetch_linesKept s.beginOutput) hirq⟩

theorem canonical_of_keeps {s t : State} (hk : Keeps s t) (h : Canonical s) : Canonical t := by
  obtain ⟨hmem, hirq⟩ := h
  exact ⟨hk.wf hmem, linesKept_wf hk.lines hirq⟩

theorem canonical_boundary {s : State} (h : Canonical s) : Canonical (boundary s) := by
  obtain ⟨hmem, hirq⟩ := h
  exact ⟨boundary_wf hmem, boundary_lines_wf hirq⟩

/-- Settles O52: the fetch, the instruction part and the boundary evaluation each keep the canonical forms. -/
theorem stepKeepsTheCanonicalForms : Obligations.StepKeepsTheCanonicalForms := by
  intro s t hs h
  obtain ⟨-, u, hu, rfl⟩ := step_next h
  exact canonical_boundary (canonical_of_keeps (exec_keeps hu) (canonical_fetch hs))

/-! ## The memory port -/

theorem memRead_plain {a : Word} {s : State} (h : plainRam s.params a = true) :
    memRead a s = (s.mem.read a.toNat, s.noteAccess (.read a (s.mem.read a.toNat))) := by
  simp [memRead, portByte_plain h, h]

theorem memWrite_plain {a : Word} {s : State} (v : Byte) (h : plainRam s.params a = true) :
    memWrite a v s = (s.setMem (s.mem.write a.toNat v)).noteAccess (.write a v) := by
  simp [memWrite, h]

theorem portByte_free {a : Word} {s : State} (h : plainRam s.params a = false) : s.portByte a = Config.portByte s.draws := by
  simp [State.portByte, h]

theorem memRead_free {a : Word} {s : State} (h : plainRam s.params a = false) :
    memRead a s = (Config.portByte s.draws, s.hookActs.noteAccess (.read a (Config.portByte s.draws))) := by
  simp [memRead, portByte_free h, h]

theorem memWrite_free {a : Word} {s : State} (v : Byte) (h : plainRam s.params a = false) :
    memWrite a v s = s.hookActs.noteAccess (.write a v) := by
  simp [memWrite, h]

/-- Settles O2: either access is the hook's action and a note of the access, and the hook writes the lines and the counter only. -/
theorem accessesOutsidePlainRamDrawOnce : Obligations.AccessesOutsidePlainRamDrawOnce := by
  intro s a v h
  rw [memRead_free h, memWrite_free v h]
  exact ⟨rfl, rfl, rfl, rfl, rfl, rfl, rfl, ⟨rfl, rfl, rfl, rfl⟩, ⟨rfl, rfl, rfl, rfl⟩, rfl, rfl, rfl, rfl⟩

theorem memWrite_sameMemoryOutside (a : Word) (v : Byte) (s : State) : SameMemoryOutside [a] s (memWrite a v s) := by
  intro b hb
  rw [memWrite_read, if_neg fun h => hb (List.mem_singleton.2 h.1)]

theorem memWrite_stored (a : Word) (v : Byte) (s : State) : Stored a v s (memWrite a v s) := by
  simp [Stored, memWrite_read]

theorem storeBlock_params (base : Word) (bytes : List Byte) (s : State) : (storeBlock base bytes s).params = s.params := by
  rw [storeBlock_frame, State.setMem_params]

/-- A block leaves every address outside its range alone (R64). -/
theorem storeBlock_read_outside {bytes : List Byte} {base b : Word} (s : State)
    (hb : ∀ j < bytes.length, b ≠ base + BitVec.ofNat 16 j) :
    (storeBlock base bytes s).mem.read b.toNat = s.mem.read b.toNat := by
  induction bytes generalizing base s with
  | nil => rfl
  | cons v vs ih =>
    have hhead : b.toNat ≠ base.toNat := fun e => hb 0 (Nat.succ_pos _) (by rw [BitVec.eq_of_toNat_eq e]; simp)
    have htail : ∀ j < vs.length, b ≠ base + 1#16 + BitVec.ofNat 16 j := by
      intro j hj e
      refine hb (j + 1) (Nat.succ_lt_succ hj) (e.trans ?_)
      rw [BitVec.add_assoc, ← BitVec.ofNat_add, Nat.add_comm]
    rw [storeBlock, ih _ htail, State.setMem_mem, Memory.read_write_ne _ _ hhead]

/-- A block that does not overrun itself is in memory byte by byte: what follows its k-th byte does not come round to the
k-th address (R64). -/
theorem storeBlock_read {bytes : List Byte} {base : Word} {k : Nat} {v : Byte} (s : State) (hlen : bytes.length ≤ 65536)
    (hk : bytes[k]? = some v) : (storeBlock base bytes s).mem.read (base + BitVec.ofNat 16 k).toNat = v := by
  induction bytes generalizing base k s with
  | nil => simp at hk
  | cons w ws ih =>
    rw [List.length_cons] at hlen
    cases k with
    | zero =>
      obtain rfl : w = v := by simpa using hk
      have hlater : ∀ j < ws.length, base ≠ base + 1#16 + BitVec.ofNat 16 j := by
        intro j hj
        bv_omega
      rw [BitVec.add_zero, storeBlock, storeBlock_read_outside _ hlater, State.setMem_mem,
        Memory.read_write_same]
    | succ k =>
      have hnext : base + BitVec.ofNat 16 (k + 1) = base + 1#16 + BitVec.ofNat 16 k := by
        rw [BitVec.add_assoc, ← BitVec.ofNat_add, Nat.add_comm]
      rw [hnext]
      exact ih _ (by omega) (by simpa using hk)

/-- Settles O1: for the core's accesses by what each is on plain RAM and elsewhere, for the block by induction on its bytes. -/
theorem portAnswersTheLastByteWritten : Obligations.PortAnswersTheLastByteWritten := by
  refine ⟨fun s a v h => ?plain, fun s a v h b _ => ?elsewhere, fun s base bytes k v hlen hk h => ?block⟩
  case plain =>
    have hstored : (memWrite a v s).mem.read a.toNat = v := by simpa [Stored, h] using memWrite_stored a v s
    have hread : (memRead a (memWrite a v s)).1 = v := by
      rw [memRead_plain (by rwa [memWrite_params]), hstored]
    have hframe : ∀ b : Word, b ≠ a → (memWrite a v s).mem.read b.toNat = s.mem.read b.toNat := fun b hb =>
      memWrite_sameMemoryOutside a v s b (by simpa using hb)
    rw [memRead_plain h]
    refine ⟨hread, rfl, hframe, rfl, ?_⟩
    rw [memWrite_plain v h]
    rfl
  case elsewhere =>
    rw [memRead_free h, memWrite_free v h]
    exact ⟨rfl, rfl⟩
  case block => rw [memRead_plain (by rwa [storeBlock_params]), storeBlock_read s hlen hk]

/-! ## The accesses of a step -/

theorem fetch_instr_size (s : State) : (fetch s).instr.size = sizeOfByte (s.portByte s.pc) := decodeBytes_size _ _ _

theorem beginOutput_accessesOf (s : State) : accessesOf s.beginOutput.out = [] := rfl

theorem serviceNmi_accesses (s : State) : accessesOf (serviceNmi s).out = accessesOf s.out ++ serviceAccesses vecNmi s :=
  takeInterrupt_accesses s.pc false vecNmi (s.setLines { s.lines with nmiPending := false })

theorem serviceIrq_accesses (s : State) : accessesOf (serviceIrq s).out = accessesOf s.out ++ serviceAccesses vecIrq s :=
  takeInterrupt_accesses s.pc false vecIrq s

theorem boundary_accesses (s : State) :
    accessesOf (boundary s).out = accessesOf s.out ++
      (if s.lines.nmiPending then serviceAccesses vecNmi s
       else if s.irqRequest && !s.flags.i then serviceAccesses vecIrq s else []) := by
  unfold boundary
  split
  · exact serviceNmi_accesses s
  · split
    · exact serviceIrq_accesses s
    · exact (List.append_nil _).symm

/-- Settles O47: a step begins with no access noted, and the fetch, the instruction part and the boundary evaluation append
their own. -/
theorem accessesOfAStepInOrder : Obligations.AccessesOfAStepInOrder := by
  intro s t h
  obtain ⟨-, u, hu, rfl⟩ := step_next h
  have hfetch : accessesOf (fetch s.beginOutput).state.out = fetchAccesses (fetch s.beginOutput).instr.size s.pc := by
    rw [fetch_accesses, ← fetch_instr_size, beginOutput_accessesOf]
    rfl
  exact ⟨u, hu, rfl, hfetch, by rw [exec_accesses hu, hfetch], boundary_accesses u⟩

/-! ## The memory that an instruction changes -/

/-- Between `s` and `t` memory differs at most at the addresses that the accesses `l` write. -/
def ChangesOnlyWritten (l : List AccessAt) (s t : State) : Prop :=
  ∀ a : Word, AccessAt.w a ∉ l → t.mem.read a.toNat = s.mem.read a.toNat

variable {l : List AccessAt} {s t u : State}

theorem changesOnlyWritten_of_mem_eq (h : t.mem = s.mem) : ChangesOnlyWritten l s t := fun a _ => by rw [h]

theorem ChangesOnlyWritten.congr (h : ChangesOnlyWritten l s t) (hu : u.mem = t.mem) : ChangesOnlyWritten l s u :=
  fun a ha => by rw [hu, h a ha]

/-- The frame of an operation that stores at the addresses `stored`, each of them written by `l`. -/
theorem changesOnlyWritten_of_outside {stored : List Word} (h : SameMemoryOutside stored s t)
    (hl : ∀ a ∈ stored, AccessAt.w a ∈ l) : ChangesOnlyWritten l s t := fun a ha => h a fun hmem => ha (hl a hmem)

theorem changesOnlyWritten_storeByte (i : Instr) (m : MemMode) (v : Byte) (s : State) :
    ChangesOnlyWritten (storeAccesses m s) s (storeByte i m v s) := by
  intro a ha
  have hne : a ≠ (resolve m s).addr := fun e => ha (by simp [storeAccesses, e])
  rw [storeByte_read, if_neg fun h => hne h.1]

theorem changesOnlyWritten_modifyByte (i : Instr) (m : MemMode) (f : Byte → Byte) (g : Flags → Byte → Flags) (s : State) :
    ChangesOnlyWritten (modifyAccesses m s) s (modifyByte i m f g s) := by
  intro a ha
  have hne : a ≠ (resolve m s).addr := fun e => ha (by simp [modifyAccesses, e])
  rw [modifyByte_read, if_neg fun h => hne h.1]

theorem changesOnlyWritten_shiftTarget (i : Instr) (t : Target) (f : Byte → Shifted) (s : State) :
    ChangesOnlyWritten (targetAccesses t s) s (shiftTarget i t f s) := by
  cases t with
  | acc => exact changesOnlyWritten_of_mem_eq rfl
  | mem m => exact changesOnlyWritten_modifyByte _ _ _ _ _

theorem stackAt_zero (s : State) : stackAt s 0 = stackAddr s.sp := by simp [stackAt, stackAddr]

theorem stackAt_neg_one (s : State) : stackAt s (-1) = stackAddr (s.sp - 1#8) := by
  rw [BitVec.sub_eq_add_neg]
  rfl

theorem stackAt_neg_two (s : State) : stackAt s (-2) = stackAddr (s.sp - 2#8) := by
  rw [BitVec.sub_eq_add_neg]
  rfl

theorem push16_sameMemoryOutside (w : Word) (s : State) :
    SameMemoryOutside [stackAddr s.sp, stackAddr (s.sp - 1#8)] s (push16 w s) := by
  intro a ha
  obtain ⟨hhigh, hlow⟩ : a ≠ stackAddr s.sp ∧ a ≠ stackAddr (s.sp - 1#8) := by simpa using ha
  calc (push16 w s).mem.read a.toNat
      = (push8 (hi w) s).mem.read a.toNat := push8_sameMemoryOutside _ _ a (by simpa using hlow)
    _ = s.mem.read a.toNat := push8_sameMemoryOutside _ _ a (by simpa using hhigh)

theorem changesOnlyWritten_push8 (v : Byte) (s : State) : ChangesOnlyWritten [.w (stackAt s 0)] s (push8 v s) :=
  changesOnlyWritten_of_outside (push8_sameMemoryOutside v s) (by simp [stackAt_zero])

theorem changesOnlyWritten_push16 (w : Word) (s : State) :
    ChangesOnlyWritten [.w (stackAt s 0), .w (stackAt s (-1))] s (push16 w s) :=
  changesOnlyWritten_of_outside (push16_sameMemoryOutside w s) (by simp [stackAt_zero, stackAt_neg_one])

theorem changesOnlyWritten_takeInterrupt (ret : Word) (brk : Bool) (s : State) :
    ChangesOnlyWritten (serviceAccesses vecIrq s) s (takeInterrupt ret brk vecIrq s) := by
  obtain ⟨-, -, -, hout, -⟩ := takeInterrupt_taken ret brk vecIrq s (by decide) (by decide)
  exact changesOnlyWritten_of_outside hout (by simp [serviceAccesses, stackAt_zero, stackAt_neg_one, stackAt_neg_two])

theorem execUnknown_mem {op : Byte} (h : execUnknown op s = .next t) : t.mem = s.mem := by
  unfold execUnknown at h
  split at h
  · cases h
  · cases h
    rfl

/-- The stores, read-modify-writes, pushes and BRK change memory where they write; no other instruction changes it. -/
theorem exec_changesOnlyWritten {i : Instr} (h : exec i s = .next t) : ChangesOnlyWritten (instrAccesses i s) s t := by
  cases i
  case unknown op => exact changesOnlyWritten_of_mem_eq (execUnknown_mem h)
  all_goals obtain rfl := Host.Outcome.next.inj h
  case sta | stx | sty => exact changesOnlyWritten_storeByte _ _ _ _
  case inc | dec => exact changesOnlyWritten_modifyByte _ _ _ _ _
  case asl | lsr | rol | ror => exact changesOnlyWritten_shiftTarget _ _ _ _
  case pha => exact (changesOnlyWritten_push8 s.a s).congr rfl
  case php => exact (changesOnlyWritten_push8 (statusByte true s.flags) s).congr rfl
  case jsr => exact (changesOnlyWritten_push16 (s.pc + 2#16) s).congr rfl
  case brk => exact (changesOnlyWritten_takeInterrupt (s.pc + 2#16) true s).congr (by simp)
  all_goals exact changesOnlyWritten_of_mem_eq (by simp)

/-- Settles O51: the system and the lines by what every instruction keeps, memory by `exec_changesOnlyWritten`. -/
theorem instructionsWriteMemoryOnlyWhereListed : Obligations.InstructionsWriteMemoryOnlyWhereListed := by
  intro i s t h
  have hk := exec_keeps h
  exact ⟨⟨hk.run, hk.params⟩, hk.lines, exec_changesOnlyWritten h⟩

end Sys2Proof.Machine
end

section
/-! PROOFS. The encodings of `spec/30_encoding.md`: decoding and encoding invert each other (R80 to R86), and the unknown bytes (R88). -/

namespace Sys2Proof

variable {i : Instr} {op : Byte} {rest : List Byte}

/-! ## Decoding an encoding -/

/-- Bytes that are enough for their opcode byte decode, whatever they are (R84). -/
theorem decode_cons (h : sizeOfByte op ≤ rest.length + 1) :
    decode (op :: rest) = .ok (decodeBytes op (rest.getD 0 0) (rest.getD 1 0)) (rest.drop (sizeOfByte op - 1)) :=
  if_neg (Nat.not_lt.2 h)

theorem sizeOfByte_le_three (op : Byte) : sizeOfByte op ≤ 3 := by
  rw [← decodeBytes_size op 0 0]
  exact Instr.size_le_three _

/-- Only the unknown bytes have no mnemonic (R88). -/
theorem eq_unknown_of_mnemonic_eq_none (h : i.mnemonic = none) : ∃ op, i = .unknown op := by
  cases i
  case unknown op => exact ⟨op, rfl⟩
  all_goals cases h

theorem encode_unknown (h : op ∈ unknownOpcodes) : encode (.unknown op) = [op] :=
  if_pos ((rowOfByte_none op).2 h)

/-- The opcode byte of an instruction's row decodes, with the instruction's operand bytes after it, to the instruction. -/
theorem decodeBytes_of_row {r : OpRow} (hr : i.row = some r) (rest : List Byte) :
    decodeBytes r.opcode ((i.operandBytes ++ rest).getD 0 0) ((i.operandBytes ++ rest).getD 1 0) = i := by
  unfold Instr.row at hr
  split at hr
  · next m hm =>
    obtain ⟨hmnemonic, hmode⟩ := rowOfForm_form hr
    have hbyte : rowOfByte r.opcode = some r := (opcodeTable_rows r (rowOfForm_mem hr)).1
    have hrow := decodeBytes_row hbyte ((i.operandBytes ++ rest).getD 0 0) ((i.operandBytes ++ rest).getD 1 0)
    rw [hmnemonic, hmode, assemble_self hm] at hrow
    exact (Option.some.inj hrow).symm
  · cases hr

/-- A well-formed instruction is encoded as an opcode byte that decodes to it, and its operand bytes (R81). -/
theorem encode_of_wellFormed (h : i.wellFormed = true) : ∃ op, encode i = op :: i.operandBytes ∧
    ∀ rest, decodeBytes op ((i.operandBytes ++ rest).getD 0 0) ((i.operandBytes ++ rest).getD 1 0) = i := by
  by_cases hm : i.mnemonic = none
  · obtain ⟨op, rfl⟩ := eq_unknown_of_mnemonic_eq_none hm
    have hop : op ∈ unknownOpcodes := List.contains_iff_mem.1 h
    exact ⟨op, encode_unknown hop, fun _ => (decodeBytes_unknown_iff op _ _).2 hop⟩
  · obtain ⟨r, hr⟩ := wellFormed_row i h hm
    exact ⟨r.opcode, encode_row hr, decodeBytes_of_row hr⟩

theorem decode_encode (h : i.wellFormed = true) (rest : List Byte) : decode (encode i ++ rest) = .ok i rest := by
  obtain ⟨op, hencode, hdecode⟩ := encode_of_wellFormed h
  have hlen : i.operandBytes.length + 1 = sizeOfByte op := by
    rw [i.operandBytes_length, ← decodeBytes_size, hdecode rest]
  have hfit : sizeOfByte op ≤ (i.operandBytes ++ rest).length + 1 := by
    rw [List.length_append]
    omega
  rw [hencode, List.cons_append, decode_cons hfit, hdecode rest, ← hlen, Nat.add_sub_cancel, List.drop_left]

/-- Settles O38: an encoding is an opcode byte that decodes to the instruction, and as many operand bytes as that byte asks for. -/
theorem decodeOfEncodeIsTheInstruction : Obligations.DecodeOfEncodeIsTheInstruction := fun _ rest h => decode_encode h rest

/-! ## Encoding a decoded instruction -/

/-- What the decoder makes of an opcode byte is well formed, and encodes to that byte and the operand bytes its size takes (R80, R81). -/
theorem decodeBytes_spec (op b1 b2 : Byte) : (decodeBytes op b1 b2).wellFormed = true ∧
    encode (decodeBytes op b1 b2) = op :: [b1, b2].take (sizeOfByte op - 1) := by
  cases hr : rowOfByte op with
  | none =>
    have hop : op ∈ unknownOpcodes := (rowOfByte_none op).1 hr
    rw [decodeBytes_none hr, encode_unknown hop]
    exact ⟨List.contains_iff_mem.2 hop, by simp [sizeOfByte, hr]⟩
  | some r =>
    have hassemble := decodeBytes_row hr b1 b2
    obtain ⟨hmnemonic, hmode, hbytes⟩ := assemble_some hassemble
    have hrow : (decodeBytes op b1 b2).row = some r := by
      simp only [Instr.row, hmnemonic, hmode]
      exact (opcodeTable_rows r (rowOfByte_mem hr)).2.1
    refine ⟨assemble_wellFormed r (rowOfByte_mem hr) b1 b2 _ hassemble, ?_⟩
    rw [encode_row hrow, rowOfByte_opcode hr, hbytes, sizeOfByte, hr]

/-- A decoded list has an opcode byte, and after it the operand bytes that this byte asks for (R84). -/
theorem decode_ok {bs : List Byte} (h : decode bs = .ok i rest) : ∃ op tail, bs = op :: tail ∧ sizeOfByte op ≤ tail.length + 1 ∧
    i = decodeBytes op (tail.getD 0 0) (tail.getD 1 0) ∧ rest = tail.drop (sizeOfByte op - 1) := by
  cases bs with
  | nil => cases h
  | cons op tail =>
    have hfit : sizeOfByte op ≤ tail.length + 1 := by
      by_contra hshort
      rw [decode, if_pos (Nat.not_le.1 hshort)] at h
      cases h
    rw [decode_cons hfit] at h
    cases h
    exact ⟨op, tail, rfl, hfit, rfl, rfl⟩

/-- The two bytes handed to the decoder are the list's own, as far as the list has the bytes taken. -/
theorem take_getD_eq_take {n : Nat} {l : List Byte} (hn : n ≤ 2) (hl : n ≤ l.length) :
    [l.getD 0 0, l.getD 1 0].take n = l.take n := by
  match n, l with
  | 0, _ => rfl
  | 1, _ :: _ => rfl
  | 2, _ :: _ :: _ => rfl

theorem encode_decode {bs : List Byte} (h : decode bs = .ok i rest) : i.wellFormed = true ∧ encode i ++ rest = bs := by
  obtain ⟨op, tail, rfl, hfit, rfl, rfl⟩ := decode_ok h
  obtain ⟨hwf, hencode⟩ := decodeBytes_spec op (tail.getD 0 0) (tail.getD 1 0)
  have hsize := sizeOfByte_le_three op
  refine ⟨hwf, ?_⟩
  rw [hencode, take_getD_eq_take (by omega) (by omega), List.cons_append, List.take_append_drop]

/-- The encoding of a well-formed instruction is as long as its size says (R80, R83). -/
theorem encode_length (i : Instr) : Laws.EncodedLength.Statement i := by
  by_cases hm : i.mnemonic = none
  · obtain ⟨op, rfl⟩ := eq_unknown_of_mnemonic_eq_none hm
    exact Laws.EncodedLength.unknown op
  · exact Laws.EncodedLength.of_mnemonic hm

/-- Settles O39: the decoder's instruction is well formed and encodes to the bytes it was read from; no size is above three. -/
theorem encodeOfDecodeIsTheBytes : Obligations.EncodeOfDecodeIsTheBytes := by
  refine ⟨fun bs i rest h => ?encode, fun bs hlen => ?total⟩
  case encode =>
    obtain ⟨hwf, hbytes⟩ := encode_decode h
    exact ⟨hwf, hbytes, (encode_length i hwf).symm⟩
  case total =>
    match bs with
    | op :: tail => exact ⟨_, _, decode_cons ((sizeOfByte_le_three op).trans hlen)⟩

/-! ## Sample words -/

theorem decode_of_encode_eq {bs : List Byte} (h : i.wellFormed = true) (hbs : encode i = bs) (rest : List Byte) :
    decode (bs ++ rest) = .ok i rest := hbs ▸ decode_encode h rest

/-- Settles O40: each word is the encoding of its instruction. -/
theorem sampleWordsDecode : Obligations.SampleWordsDecode := fun rest =>
  ⟨decode_of_encode_eq rfl (bs := [0xB9#8, 0xFF#8, 0x12#8]) (by decide) rest,
    decode_of_encode_eq rfl (bs := [0x28#8]) (by decide) rest,
    decode_of_encode_eq rfl (bs := [0xF1#8, 0x20#8]) (by decide) rest,
    decode_of_encode_eq rfl (bs := [0x7E#8, 0x00#8, 0x20#8]) (by decide) rest,
    decode_of_encode_eq rfl (bs := [0x6C#8, 0xFF#8, 0x10#8]) (by decide) rest,
    decode_of_encode_eq rfl (bs := [0xD0#8, 0xF9#8]) (by decide) rest,
    decode_of_encode_eq rfl (bs := [0xB8#8]) (by decide) rest,
    decode_of_encode_eq (by decide) (bs := [0x89#8]) (by decide) rest⟩

/-! ## The unknown bytes -/

theorem sizeOfByte_unknown (h : op ∈ unknownOpcodes) : sizeOfByte op = 1 := by
  rw [sizeOfByte, (rowOfByte_none op).2 h]

namespace Machine

open Sys2Proof.Safety

variable {s : State}

theorem execUnknown_halt (op : Byte) (h : s.params.unknownPolicy = .halt) :
    execUnknown op s = .fault (.unknownOpcode op s.pc) := by
  simp only [execUnknown, h]

theorem execUnknown_skip (op : Byte) (h : s.params.unknownPolicy = .skip) : execUnknown op s =
    .next (((s.signal (.unknownOpcode op s.pc)).setPc (s.pc + 1#16)).addCycles s.params.unknownCycles) := by
  simp only [execUnknown, h]

/-- The fetch of an unknown byte reads that byte and no operand byte. -/
theorem fetch_unknown (h : s.portByte s.pc ∈ unknownOpcodes) :
    fetch s = { instr := .unknown (s.portByte s.pc), state := (memRead s.pc s).2 } := by
  simp only [fetch, memRead_byte, sizeOfByte_unknown h, (decodeBytes_unknown_iff _ _ _).2 h]
  rfl

theorem step_running (h : s.run = .running) :
    step s = finishStep (exec (fetch s.beginOutput).instr (fetch s.beginOutput).state) := by
  simp only [step, h]

/-- A step at an unknown byte is that byte's meaning after its one read, and the boundary evaluation (R88, R231). -/
theorem step_unknown (hrun : s.run = .running) (hop : op ∈ unknownOpcodes) (hbyte : s.portByte s.pc = op) :
    step s = finishStep (execUnknown op (memRead s.pc s.beginOutput).2) := by
  subst hbyte
  have hfetch : fetch s.beginOutput = { instr := .unknown (s.portByte s.pc), state := (memRead s.pc s.beginOutput).2 } :=
    fetch_unknown (s := s.beginOutput) hop
  rw [step_running hrun, hfetch]
  rfl

/-- Settles O37: the listed bytes are those without a row; `exec` and a step follow the policy. -/
theorem unknownBytesSkipOrHalt : Obligations.UnknownBytesSkipOrHalt := by
  refine ⟨decodeBytes_unknown_iff, rfl, fun op s hskip => ?execSkip, fun op s => execUnknown_halt op,
    fun op s hrun hhalt hop hbyte => ?stepHalt, fun op s hrun hskip hop hbyte => ?stepSkip⟩
  case execSkip =>
    exact ⟨_, execUnknown_skip op hskip, BitVec.toNat_add s.pc 1#16, rfl, rfl, ⟨rfl, rfl, rfl, rfl⟩, rfl, rfl, rfl, rfl, rfl, rfl⟩
  case stepHalt =>
    rw [step_unknown hrun hop hbyte, execUnknown_halt op (by simpa using hhalt), memRead_pc]
    rfl
  case stepSkip =>
    have hexec := execUnknown_skip (s := (memRead s.pc s.beginOutput).2) op (by simpa using hskip)
    exact ⟨_, hexec, by rw [step_unknown hrun hop hbyte, hexec]; rfl⟩

end Machine

end Sys2Proof
end

section
/-! PROOFS. The addressing modes of `spec/40_addressing_modes.md`: the effective addresses and page crossings (R100 to R113, R117), and
the operand of a read instruction (R114). -/

namespace Sys2Proof.Machine

open Sys2Proof.Safety

/-! ## Indexed addresses -/

/-- Page numbers are high bytes: the comparison of R108, R109, R112 and R113. -/
theorem hi_bne_hi (u v : Word) : (hi u != hi v) = decide (u.toNat / 256 ≠ v.toNat / 256) := by
  simp [← toNat_hi, bne, beq_eq_decide, BitVec.toNat_inj]

/-- The sum with an index is a full 16-bit addition (R108, R109, R112). -/
theorem toNat_indexed_addr (base : Word) (index : Byte) (s : State) :
    (indexed base index s).addr.toNat = (base.toNat + index.toNat) % 65536 := by
  have hindex : (index.setWidth 16).toNat = index.toNat := BitVec.toNat_setWidth_of_le (by decide)
  rw [← hindex]
  exact BitVec.toNat_add base (index.setWidth 16)

theorem indexed_crossed (base : Word) (index : Byte) (s : State) :
    (indexed base index s).crossed = decide (base.toNat / 256 ≠ (base.toNat + index.toNat) % 65536 / 256) := by
  rw [← toNat_indexed_addr base index s]
  exact hi_bne_hi base _

/-- An index added to a zero-page byte wraps inside page zero (R105, R106). -/
theorem toNat_zeroPageAddr_add (b index : Byte) : (zeroPageAddr (b + index)).toNat = (b.toNat + index.toNat) % 256 := by
  rw [toNat_zeroPageAddr]
  exact BitVec.toNat_add b index

/-! ## Branch targets -/

/-- `NEXT` of a branch, the address that its displacement is relative to (R113). -/
theorem toNat_branchNext (pc : Word) : (pc + 2#16).toNat = (pc.toNat + 2) % 65536 := BitVec.toNat_add pc 2#16

theorem toInt_sext16 (d : Byte) : (sext16 d).toInt = d.toInt := BitVec.toInt_signExtend_of_le (by decide)

/-- The displacement is signed, and the sum wraps at both ends of the address space (R113). -/
theorem toNat_branchTarget (pc : Word) (d : Byte) :
    ((branchTarget pc d).toNat : Int) = (pc.toNat + 2 + d.toInt) % 65536 := by
  rw [← toInt_sext16 d, branchTarget, BitVec.toNat_add, toNat_branchNext, BitVec.toInt_eq_toNat_cond]
  split <;> omega

theorem branchCrossed_eq (pc : Word) (d : Byte) :
    branchCrossed pc d = decide ((pc.toNat + 2) % 65536 / 256 ≠ (branchTarget pc d).toNat / 256) := by
  rw [← toNat_branchNext pc]
  exact hi_bne_hi _ _

/-! ## The table of the modes -/

/-- Settles O7, mode by mode; an indexed sum and its page comparison are `indexed`'s, whatever the base. -/
theorem effectiveAddressesOfTheModes : Obligations.EffectiveAddressesOfTheModes := by
  intro b w s
  refine ⟨?immediate, ?zeroPage, ?zeroPageX, ?zeroPageY, ?absolute, ?absoluteX, ?absoluteY, ?jump, ?indexedIndirect,
    ?indirectIndexed, ?relative, ?relativeCrossed⟩
  case immediate => exact ⟨rfl, rfl⟩
  case zeroPage => exact ⟨toNat_zeroPageAddr b, rfl⟩
  case zeroPageX => exact ⟨toNat_zeroPageAddr_add b s.x, rfl⟩
  case zeroPageY => exact ⟨toNat_zeroPageAddr_add b s.y, rfl⟩
  case absolute => exact ⟨rfl, rfl⟩
  case absoluteX => exact ⟨_, rfl, toNat_indexed_addr w s.x s, indexed_crossed w s.x s⟩
  case absoluteY => exact ⟨_, rfl, toNat_indexed_addr w s.y s, indexed_crossed w s.y s⟩
  case jump => exact ⟨rfl, rfl⟩
  case indexedIndirect => exact ⟨b + s.x, BitVec.toNat_add b s.x, rfl, rfl⟩
  case indirectIndexed => exact ⟨_, rfl, toNat_indexed_addr _ s.y _, indexed_crossed _ s.y _⟩
  case relative => exact toNat_branchTarget s.pc b
  case relativeCrossed => exact branchCrossed_eq s.pc b

/-! ## The operand of a read instruction -/

/-- Settles O8: the read at E is one port read in the state that the pointer reads leave, and neither writes the frame. -/
theorem operandValueIsOneReadAtE : Obligations.OperandValueIsOneReadAtE := by
  refine ⟨fun v s => ⟨rfl, rfl⟩, fun m s => ?memory⟩
  have haccesses : accessesOf (readSource (.mem m) s).state.out =
      accessesOf s.out ++ pointerAccesses m s ++ [.r (resolve m s).addr] := by
    rw [readSource_accesses, sourceAccesses, readAccesses, List.append_assoc]
  have hregisters : SameRegisters s (readSource (.mem m) s).state :=
    ⟨readSource_a _ s, readSource_x _ s, readSource_y _ s, readSource_sp _ s⟩
  have hsystem : SameSystem s (readSource (.mem m) s).state := ⟨readSource_run _ s, readSource_params _ s⟩
  exact ⟨readMem_byte m s, readMem_byte_plain, haccesses, hregisters, readSource_flags _ s, readSource_pc _ s,
    readSource_mem _ s, hsystem, readSource_linesKept _ s⟩

end Sys2Proof.Machine
end

section
/-! PROOFS. What the instruction families share: an encoding of R86 is a row of the opcode table, and the end of an instruction
part (R13, R115, R280). -/

namespace Sys2Proof.Machine

open Sys2Proof.Safety

/-! ## An encoding is a row of the table -/

theorem wellFormed_of_row {i : Instr} {r : OpRow} (hr : i.row = some r) : i.wellFormed = true := by
  rw [← decodeBytes_of_row hr []]
  exact (decodeBytes_spec _ _ _).1

/-- An instruction's row in the opcode table is its encoding, with the row's cycles and page-cross mark (R83, R86). -/
theorem encoded_of_row {i : Instr} {op : Byte} {m : Mnemonic} {md : Mode} {cycles : Nat} {plusP : Bool}
    (hr : i.row = some ⟨op, m, md, cycles, plusP⟩) : Encoded i (op :: i.operandBytes) cycles plusP := by
  have hcycles : minCycles i = cycles := by simp [minCycles, hr]
  have hcross : ∀ crossed, crossCycles i crossed = (plusP && crossed).toNat := by simp [crossCycles, hr]
  exact ⟨wellFormed_of_row hr, encode_row hr, i.operandBytes_length.symm, hcycles, hcross⟩

/-! ## The end of an instruction part -/

variable {i : Instr} {crossed : Bool} {s t u : State}

/-- An instruction part that completes at NEXT with its cycles and no outcome has retired: its accesses are R115's by
`exec_accesses`. -/
theorem retired_of_exec (h : exec i s = .next t) (hpc : t.pc = nextPc i s)
    (hcycles : t.out.cycles = s.out.cycles + (minCycles i + crossCycles i crossed)) (hout : NoOutcome s t) :
    Retired i crossed s t :=
  ⟨by rw [hpc, toNat_nextPc], by rw [hcycles, Nat.add_assoc], hout, exec_accesses h⟩

theorem kept_of_exec (h : exec i s = .next t) (hmem : t.mem = s.mem) : Kept s t := by
  have hk := exec_keeps h
  exact ⟨fun a => by rw [hmem], ⟨hk.run, hk.params⟩, hk.lines⟩

/-- What `retire` ends has retired and kept the rest when the state before it has PC, memory, cycles and outcomes as at the start. -/
theorem retired_and_kept_of_exec (h : exec i s = .next (retire i crossed u)) (hpc : u.pc = s.pc)
    (hcycles : u.out.cycles = s.out.cycles) (hout : u.out.outcomes = s.out.outcomes) (hmem : u.mem = s.mem) :
    Retired i crossed s (retire i crossed u) ∧ Kept s (retire i crossed u) := by
  have hsum : (retire i crossed u).out.cycles = s.out.cycles + (minCycles i + crossCycles i crossed) := by
    rw [retire_out_cycles, hcycles]
  exact ⟨retired_of_exec h (retire_pc_of_pc_eq hpc) hsum hout, kept_of_exec h hmem⟩

/-- The same for an instruction that between its operand read and `retire` writes registers and flags only. -/
theorem retired_and_kept_of_readSource {src : Source} (h : exec i s = .next (retire i (readSource src s).crossed u))
    (hpc : u.pc = (readSource src s).state.pc) (hout : u.out = (readSource src s).state.out)
    (hmem : u.mem = (readSource src s).state.mem) :
    Retired i (readSource src s).crossed s (retire i (readSource src s).crossed u) ∧
      Kept s (retire i (readSource src s).crossed u) :=
  retired_and_kept_of_exec h (by rw [hpc, readSource_pc]) (by rw [hout, readSource_out_cycles])
    (by rw [hout, readSource_out_outcomes]) (by rw [hmem, readSource_mem])

end Sys2Proof.Machine
end

section
/-! PROOFS. Loads, stores and register transfers (`spec/41_load_store_transfer.md`). -/

namespace Sys2Proof.Machine

open Sys2Proof.Safety

/-! ## Loads -/

/-- `SetZN` after an operand read works on the flags before it (R10). -/
theorem readSource_flags_setZN (src : Source) (v : Byte) (s : State) :
    (readSource src s).state.flags.setZN v = flagsZN s.flags v := by
  rw [readSource_flags, setZN_eq]

/-- Settles O9: a load writes its register and the flags between the operand read and `retire`; each encoding is a row of the
table. -/
theorem loadsWriteTheirRegisterAndZN : Obligations.LoadsWriteTheirRegisterAndZN := by
  refine ⟨fun src s => ?lda, fun src s => ?ldx, fun src s => ?ldy, fun b w => ?ldaEncodings, fun b w => ?encodings⟩
  case lda =>
    exact ⟨_, rfl, rfl, readSource_flags_setZN src _ s, readSource_x src s, readSource_y src s, readSource_sp src s,
      retired_and_kept_of_readSource rfl rfl rfl rfl⟩
  case ldx =>
    exact ⟨_, rfl, rfl, readSource_flags_setZN src _ s, readSource_a src s, readSource_y src s, readSource_sp src s,
      retired_and_kept_of_readSource rfl rfl rfl rfl⟩
  case ldy =>
    exact ⟨_, rfl, rfl, readSource_flags_setZN src _ s, readSource_a src s, readSource_x src s, readSource_sp src s,
      retired_and_kept_of_readSource rfl rfl rfl rfl⟩
  case ldaEncodings => refine ⟨?_, ?_, ?_, ?_, ?_, ?_, ?_, ?_⟩ <;> exact encoded_of_row rfl
  case encodings => refine ⟨?_, ?_, ?_, ?_, ?_, ?_, ?_, ?_, ?_, ?_⟩ <;> exact encoded_of_row rfl

/-! ## Stores -/

theorem storeByte_stored (i : Instr) (m : MemMode) (v : Byte) (s : State) :
    Stored (resolve m s).addr v s (storeByte i m v s) := by
  simp [Stored, storeByte_read]

theorem storeByte_sameMemoryOutside (i : Instr) (m : MemMode) (v : Byte) (s : State) :
    SameMemoryOutside [(resolve m s).addr] s (storeByte i m v s) := by
  intro a ha
  rw [storeByte_read, if_neg fun h => ha (List.mem_singleton.2 h.1)]

/-- An instruction whose meaning is `storeByte` of a register stores that register. -/
theorem stores_of_exec {f : MemMode → Instr} {v : State → Byte}
    (h : ∀ m s, exec (f m) s = .next (storeByte (f m) m (v s) s)) : Stores f v := by
  intro m s
  have hk := exec_keeps (h m s)
  have hregisters : SameRegisters s (storeByte (f m) m (v s) s) :=
    ⟨storeByte_a _ _ _ _, storeByte_x _ _ _ _, storeByte_y _ _ _ _, storeByte_sp _ _ _ _⟩
  have hretired : Retired (f m) (resolve m s).crossed s (storeByte (f m) m (v s) s) :=
    retired_of_exec (h m s) (storeByte_pc _ _ _ _) (storeByte_out_cycles _ _ _ _) (storeByte_out_outcomes _ _ _ _)
  exact ⟨_, h m s, storeByte_stored _ _ _ _, storeByte_sameMemoryOutside _ _ _ _, hregisters, storeByte_flags _ _ _ _, hretired,
    ⟨hk.run, hk.params⟩, hk.lines⟩

/-- Settles O10: the three are `storeByte` of their register, whose accesses hold no read of the target. -/
theorem storesSendTheirRegisterToE : Obligations.StoresSendTheirRegisterToE := by
  refine ⟨stores_of_exec fun _ _ => rfl, stores_of_exec fun _ _ => rfl, stores_of_exec fun _ _ => rfl, fun b w => ?encodings⟩
  case encodings => refine ⟨?_, ?_, ?_, ?_, ?_, ?_, ?_, ?_, ?_, ?_, ?_, ?_, ?_⟩ <;> exact encoded_of_row rfl

/-! ## Transfers -/

/-- Settles O11: a transfer writes its register and the flags, and nothing before `retire` touches PC, memory or the outputs. -/
theorem transfersCopyAndSetZN : Obligations.TransfersCopyAndSetZN := by
  refine ⟨?encodings, fun s => ⟨?tax, ?tay, ?txa, ?tya, ?tsx⟩⟩
  case encodings => refine ⟨?_, ?_, ?_, ?_, ?_⟩ <;> exact encoded_of_row rfl
  case tax | tay | txa | tya | tsx =>
    exact ⟨_, rfl, rfl, setZN_eq _ _, rfl, rfl, rfl, retired_and_kept_of_exec rfl rfl rfl rfl rfl⟩

/-- Settles O12: TXS is a transfer without `SetZN`. -/
theorem txsWritesSpAndNoFlag : Obligations.TxsWritesSpAndNoFlag :=
  ⟨encoded_of_row rfl, fun _ => ⟨_, rfl, rfl, rfl, rfl, rfl, rfl, retired_and_kept_of_exec rfl rfl rfl rfl rfl⟩⟩

end Sys2Proof.Machine
end

section
/-! PROOFS. The stack in plain RAM (R141) and the stack instructions (R142 to R146) of `spec/42_stack.md`. -/

namespace Sys2Proof.Machine

open Sys2Proof.Safety

/-! ## A pull after a push -/

/-- The byte above SP, which the next pull takes, is the pushed one in every state that has SP, that byte and the parameters as
the push left them (R141, R146). -/
theorem portByte_of_stored {v : Byte} {s t : State} (hplain : plainRam s.params (stackAddr s.sp) = true)
    (hstored : Stored (stackAddr s.sp) v s t) (hsp : t.sp = s.sp - 1#8) (hparams : t.params = s.params) :
    t.portByte (stackAddr (t.sp + 1#8)) = v := by
  rw [hsp, BitVec.sub_add_cancel, portByte_plain (by rwa [hparams])]
  exact hstored.trans (if_pos hplain)

theorem pull8_push8_sp (v : Byte) (s : State) : (pull8 (push8 v s)).2.sp = s.sp := by
  rw [pull8_sp, push8_sp, BitVec.sub_add_cancel]

/-! ## Many pushes -/

/-- The bytes of a list pushed one after another. -/
def pushBytes (vs : List Byte) (s : State) : State := vs.foldl (fun t v => push8 v t) s

theorem pushBytes_concat (vs : List Byte) (v : Byte) (s : State) :
    pushBytes (vs ++ [v]) s = push8 v (pushBytes vs s) := List.foldl_concat _ _ _ _

theorem pushBytes_params (vs : List Byte) (s : State) : (pushBytes vs s).params = s.params := by
  induction vs using List.reverseRecOn with
  | nil => rfl
  | append_singleton vs v ih => rw [pushBytes_concat, push8_params, ih]

theorem pushBytes_sp (vs : List Byte) (s : State) : (pushBytes vs s).sp = s.sp - BitVec.ofNat 8 vs.length := by
  induction vs using List.reverseRecOn with
  | nil => exact (BitVec.sub_zero _).symm
  | append_singleton vs v ih =>
    rw [pushBytes_concat, push8_sp, ih, List.length_append, List.length_singleton, BitVec.ofNat_add]
    bv_omega

variable {vs : List Byte} {v : Byte} {s : State}

/-- The last push of several stores at the SP that the ones before it leave. -/
theorem pushBytes_concat_read (h : ∀ p : Byte, plainRam s.params (stackAddr p) = true) (b : Word) :
    (pushBytes (vs ++ [v]) s).mem.read b.toNat =
      if b = stackAddr (s.sp - BitVec.ofNat 8 vs.length) then v else (pushBytes vs s).mem.read b.toNat := by
  simp [pushBytes_concat, push8_read, pushBytes_sp, pushBytes_params, h]

/-- Up to 256 pushes do not come round to a byte that one of them stored (R141). -/
theorem pushBytes_read (h : ∀ p : Byte, plainRam s.params (stackAddr p) = true) {k : Nat} (hlen : vs.length ≤ 256)
    (hk : vs[k]? = some v) : (pushBytes vs s).mem.read (stackAddr (s.sp - BitVec.ofNat 8 k)).toNat = v := by
  induction vs using List.reverseRecOn with
  | nil => simp at hk
  | append_singleton vs w ih =>
    rw [List.length_append, List.length_singleton] at hlen
    rw [pushBytes_concat_read h]
    obtain hlt | rfl | hgt := Nat.lt_trichotomy k vs.length
    · have hne : s.sp - BitVec.ofNat 8 k ≠ s.sp - BitVec.ofNat 8 vs.length := by bv_omega
      rw [if_neg (stackAddr_inj.not.2 hne)]
      exact ih (by omega) (by rwa [List.getElem?_append_left hlt] at hk)
    · rw [if_pos rfl]
      simpa using hk
    · rw [List.getElem?_eq_none (by simpa using hgt)] at hk
      cases hk

/-- Settles O5: by induction on the pushed bytes from the last; the 257th finds SP where the first did. -/
theorem pushesLieDownwardAndWrap : Obligations.PushesLieDownwardAndWrap := by
  intro s h
  refine ⟨fun v => ⟨?byte, pull8_push8_sp v s⟩, fun vs hlen => ⟨pushBytes_sp vs s, fun k v => pushBytes_read h hlen⟩,
    fun vs v hlen => ?wrap, pull8_mem s⟩
  case byte =>
    rw [pull8_byte]
    exact portByte_of_stored (h s.sp) (push8_stored v s) (push8_sp v s) (push8_params v s)
  case wrap =>
    have hround : s.sp - BitVec.ofNat 8 vs.length = s.sp := by
      rw [hlen]
      exact BitVec.sub_zero _
    exact (pushBytes_concat_read h _).trans (if_pos (by rw [hround]))

/-! ## The stack instructions -/

/-- An instruction whose meaning is one push stores that byte, moves SP, and leaves every other register and flag alone. -/
theorem completes_of_push8 {i : Instr} (h : exec i s = .next (retire i false (push8 v s))) : Completes i s (fun t =>
    Stored (stackAddr s.sp) v s t ∧ SameMemoryOutside [stackAddr s.sp] s t ∧ t.sp = s.sp - 1#8 ∧ t.a = s.a ∧
      t.x = s.x ∧ t.y = s.y ∧ t.flags = s.flags ∧ Retired i false s t ∧ SameSystem s t ∧ LinesKept s t) := by
  have hk := exec_keeps h
  have hretired : Retired i false s (retire i false (push8 v s)) :=
    retired_of_exec h (retire_pc_of_pc_eq (push8_pc v s)) (by rw [retire_out_cycles, push8_out_cycles]) (push8_out_outcomes v s)
  exact ⟨_, h, push8_stored v s, push8_sameMemoryOutside v s, push8_sp v s, push8_a v s, push8_x v s, push8_y v s,
    push8_flags v s, hretired, ⟨hk.run, hk.params⟩, hk.lines⟩

/-- Settles O13: PHA pushes A, PHP the status byte with Break set. -/
theorem pushesStoreOneByteAndDecrementSp : Obligations.PushesStoreOneByteAndDecrementSp := by
  refine ⟨encoded_of_row rfl, encoded_of_row rfl, fun s => completes_of_push8 rfl,
    fun s => ⟨statusByte true s.flags, ?bits, completes_of_push8 rfl⟩⟩
  have bit := statusByte_getLsbD true s.flags
  exact ⟨bit 7, bit 6, bit 5, bit 4, bit 3, bit 2, bit 1, bit 0⟩

/-- `SetZN` after a pull works on the flags before it (R10, R144). -/
theorem pull8_flags_setZN (s : State) :
    (pull8 s).2.flags.setZN (pull8 s).1 = flagsZN s.flags (s.portByte (stackAddr (s.sp + 1#8))) := by
  rw [pull8_flags, pull8_byte, setZN_eq]

/-- Settles O14: a pull reads one byte, and nothing after it but `retire` touches PC, memory or the outputs. -/
theorem pullsIncrementSpAndLoad : Obligations.PullsIncrementSpAndLoad := by
  refine ⟨encoded_of_row rfl, encoded_of_row rfl, fun s => ⟨_, rfl, pull8_byte s, pull8_flags_setZN s, pull8_sp s,
    pull8_x s, pull8_y s, ?pla⟩,
    fun s => ⟨_, rfl, _, rfl, congrArg loadStatus (pull8_byte s), pull8_sp s, pull8_a s, pull8_x s, pull8_y s, ?plp⟩⟩
  case pla | plp =>
    exact retired_and_kept_of_exec rfl (pull8_pc s) (pull8_out_cycles s) (pull8_out_outcomes s) (pull8_mem s)

/-- After an instruction whose meaning is one push, the next pull finds its byte and restores SP. -/
theorem completes_with_top_of_push8 {i : Instr} (h : exec i s = .next (retire i false (push8 v s)))
    (hplain : plainRam s.params (stackAddr s.sp) = true) : Completes i s (fun t =>
      t.portByte (stackAddr (t.sp + 1#8)) = v ∧ t.sp + 1#8 = s.sp ∧ t.a = s.a ∧ t.flags = s.flags) := by
  obtain ⟨t, ht, hstored, -, hsp, ha, -, -, hflags, -, ⟨-, hparams⟩, -⟩ := completes_of_push8 h
  exact ⟨t, ht, portByte_of_stored hplain hstored hsp hparams, by rw [hsp, BitVec.sub_add_cancel], ha, hflags⟩

/-- Settles O15: the pull instruction, by O14, takes the byte that the push left above SP. -/
theorem pullUndoesPush : Obligations.PullUndoesPush := by
  intro s hplain
  obtain ⟨-, -, hpla, hplp⟩ := pullsIncrementSpAndLoad
  refine ⟨?pha, ?php⟩
  case pha =>
    obtain ⟨t, ht, htop, hsp, -, hflags⟩ := completes_with_top_of_push8 (i := .pha) rfl hplain
    obtain ⟨u, hu, hua, huflags, husp, -⟩ := hpla t
    exact ⟨t, u, ht, hu, by rw [hua, htop], by rw [husp, hsp], by rw [huflags, htop, hflags]⟩
  case php =>
    obtain ⟨t, ht, htop, hsp, ha, -⟩ := completes_with_top_of_push8 (i := .php) rfl hplain
    refine ⟨?plp, ?pla⟩
    case plp =>
      obtain ⟨p, rfl, u, hu, huflags, husp, hua, -⟩ := hplp t
      have hload : u.flags = loadStatus (t.portByte (stackAddr (t.sp + 1#8))) := huflags
      exact ⟨t, u, ht, hu, by rw [hload, htop, loadStatus_statusByte], by rw [husp, hsp], by rw [hua, ha]⟩
    case pla =>
      obtain ⟨u, hu, hua, -, husp, -⟩ := hpla t
      rw [htop] at hua
      exact ⟨t, u, ht, hu, by rw [husp, hsp], by rw [hua, statusByte_bit5], by rw [hua, statusByte_breakBit],
        by rw [hua, loadStatus_statusByte]⟩

end Sys2Proof.Machine
end

section
/-! PROOFS. Logic, arithmetic and compare instructions (`spec/43_alu.md`): subtraction as the sum with a complement (R159), decimal mode
(R160, R161), and the effect of each instruction. -/

namespace Sys2Proof.Machine

open Sys2Proof.Safety

/-! ## Binary subtraction -/

/-- The complement is the negative less one (R159, line `~M`). -/
theorem toInt_not (m : Byte) : (~~~m).toInt = -m.toInt - 1 := by
  have hm : m.toNat < 256 := m.isLt
  rw [BitVec.toInt_eq_toNat_cond, BitVec.toInt_eq_toNat_cond, BitVec.toNat_not]
  split <;> split <;> omega

/-- Adding the complement subtracts: the sum exceeds the difference by 256, which becomes the carry when there is no borrow (R159). -/
theorem addBin_not_sum (a m : Byte) (c : Bool) :
    ((addBin a (~~~m) c).byte.toNat : Int) + 256 * (addBin a (~~~m) c).c.toNat =
      (a.toNat - m.toNat - (1 - c.toNat : Int)) + 256 := by
  have hm : m.toNat < 256 := m.isLt
  have hsum := (addBin_sum a (~~~m) c).1
  rw [BitVec.toNat_not] at hsum
  omega

theorem addBin_not_byte (a m : Byte) (c : Bool) :
    ((addBin a (~~~m) c).byte.toNat : Int) = (a.toNat - m.toNat - (1 - c.toNat : Int)) % 256 := by
  have hbyte : (addBin a (~~~m) c).byte.toNat < 256 := BitVec.isLt _
  have hsum := addBin_not_sum a m c
  omega

theorem addBin_not_carry (a m : Byte) (c : Bool) :
    (addBin a (~~~m) c).c = decide (a.toNat + c.toNat ≥ m.toNat + 1) := by
  have hbyte : (addBin a (~~~m) c).byte.toNat < 256 := BitVec.isLt _
  have hborrow := c.toNat_le
  have hcarry := (addBin a (~~~m) c).c.toNat_le
  have hsum := addBin_not_sum a m c
  rw [Bool.eq_iff_iff, decide_eq_true_eq, ← Bool.toNat_eq_one]
  omega

theorem addBin_not_overflow (a m : Byte) (c : Bool) : (addBin a (~~~m) c).v = true ↔
    a.toInt - m.toInt - (1 - c.toNat : Int) < -128 ∨ 127 < a.toInt - m.toInt - (1 - c.toNat : Int) := by
  rw [addBin_overflow, toInt_not]
  omega

theorem addBin_not_zero (a m : Byte) (c : Bool) :
    (addBin a (~~~m) c).z = decide ((a.toNat - m.toNat - (1 - c.toNat : Int)) % 256 = 0) := by
  obtain ⟨-, hz, -⟩ := addBin_sum a (~~~m) c
  rw [hz, ← addBin_not_byte, decide_eq_decide, Int.natCast_eq_zero]

theorem addBin_not_negative (a m : Byte) (c : Bool) :
    (addBin a (~~~m) c).n = decide ((a.toNat - m.toNat - (1 - c.toNat : Int)) % 256 ≥ 128) := by
  obtain ⟨-, -, hn⟩ := addBin_sum a (~~~m) c
  rw [hn, ← addBin_not_byte, decide_eq_decide]
  omega

/-- SBC's flags do not look at the mode (R159). -/
theorem setArith_sbcResult (f : Flags) (dec : Bool) (a m : Byte) (c : Bool) :
    f.setArith (sbcResult dec a m c) = f.setArith (addBin a (~~~m) c) := by
  cases dec <;> rfl

/-! ## Decimal subtraction -/

/-- The byte is the corrected difference modulo 256 (R161). -/
theorem toNat_sbcDecimalResult (a m : Byte) (c : Bool) :
    ((sbcDecimalResult a m c).toNat : Int) = (if sbcDiff a.toNat m.toNat c.toNat < 0
      then sbcDiff a.toNat m.toNat c.toNat - 96 else sbcDiff a.toNat m.toNat c.toNat) % 256 := by
  have hdiff : ((a.toNat / 16 * 16 : Nat) : Int) - (m.toNat / 16 * 16 : Nat) + sbcLowDigit a m c =
      sbcDiff a.toNat m.toNat c.toNat := rfl
  have hmod (k : Int) : ((BitVec.ofInt 8 k).toNat : Int) = k % 256 := by
    rw [BitVec.toNat_ofInt]
    omega
  simp only [sbcDecimalResult, hdiff, hmod]

/-! ## Arithmetic instructions -/

/-- The shape of ADC and SBC: A and the four flags from one result, between the operand read and `retire` (R158, R159). -/
theorem completes_of_setArith {i : Instr} {src : Source} {r : AluResult} {s : State}
    (h : exec i s = .next (retire i (readSource src s).crossed
      (((readSource src s).state.setA r.byte).setFlags ((readSource src s).state.flags.setArith r)))) :
    Completes i s (fun t => t.a = r.byte ∧ t.flags = s.flags.setArith r ∧ t.x = s.x ∧ t.y = s.y ∧ t.sp = s.sp ∧
      Retired i (readSource src s).crossed s t ∧ Kept s t) := by
  have hflags : (readSource src s).state.flags.setArith r = s.flags.setArith r := by rw [readSource_flags]
  exact ⟨_, h, rfl, hflags, readSource_x src s, readSource_y src s, readSource_sp src s,
    retired_and_kept_of_readSource h rfl rfl rfl⟩

/-- Settles O18: the binary result is the adder's, the decimal one that of R160's algorithm. -/
theorem adcAddsWithCarry : Obligations.AdcAddsWithCarry := by
  refine ⟨fun p f => ?mode, fun src s => ?effect, fun b w => ?encodings⟩
  case mode => simp [decimalMode]
  case effect =>
    obtain ⟨t, hexec, ha, hflags, hx, hy, hsp, hrest⟩ := completes_of_setArith (i := .adc src) (s := s) rfl
    refine ⟨t, hexec, fun hmode => ?binary, fun hmode => ?decimal, by rw [hflags]; rfl, by rw [hflags]; rfl, hx, hy, hsp, hrest⟩
    case binary =>
      obtain ⟨hsum, hz, hn⟩ := addBin_sum s.a (readSource src s).byte s.flags.c
      rw [ha, hflags, hmode]
      exact ⟨hsum, addBin_overflow _ _ _, hz, hn⟩
    case decimal =>
      rw [ha, hflags, hmode]
      exact adcDecimal_spec _ _ _
  case encodings => refine ⟨?_, ?_, ?_, ?_, ?_, ?_, ?_, ?_⟩ <;> exact encoded_of_row rfl

/-- Settles O19: the mode chooses the byte, and the flags are those of adding the complement. -/
theorem sbcSubtractsWithBorrow : Obligations.SbcSubtractsWithBorrow := by
  refine ⟨fun src s => ?effect, fun b w => ?encodings⟩
  case effect =>
    obtain ⟨t, hexec, ha, hflags, hx, hy, hsp, hrest⟩ := completes_of_setArith (i := .sbc src) (s := s) rfl
    rw [setArith_sbcResult] at hflags
    refine ⟨t, hexec, fun hmode => ?binary, fun hmode => ?decimal, ?flags⟩
    case binary =>
      rw [ha, hmode]
      exact addBin_not_byte _ _ _
    case decimal =>
      rw [ha, hmode]
      exact toNat_sbcDecimalResult _ _ _
    case flags =>
      rw [hflags]
      exact ⟨addBin_not_carry _ _ _, addBin_not_overflow _ _ _, addBin_not_zero _ _ _, addBin_not_negative _ _ _, rfl, rfl,
        hx, hy, hsp, hrest⟩
  case encodings => refine ⟨?_, ?_, ?_, ?_, ?_, ?_, ?_, ?_⟩ <;> exact encoded_of_row rfl

/-! ## Decimal numbers -/

/-- The sum of the units of two packed decimal bytes and a carry. -/
def unitsSum (a m : Byte) (c : Bool) : Nat := a.toNat % 16 + m.toNat % 16 + c.toNat

/-- The sum of their tens, with the carry out of the units. -/
def tensSum (a m : Byte) (c : Bool) : Nat := a.toNat / 16 + m.toNat / 16 + unitsSum a m c / 10

/-- The difference of the units of two packed decimal bytes less a borrow, the complement of `c`. -/
def unitsDiff (a m : Byte) (c : Bool) : Int := (a.toNat % 16 : Int) - m.toNat % 16 + c.toNat - 1

/-- The difference of their tens; a borrow from the units is -1, the floor of a negative tenth. -/
def tensDiff (a m : Byte) (c : Bool) : Int := (a.toNat / 16 : Int) - m.toNat / 16 + unitsDiff a m c / 10

theorem validBcd_and_bcd_of_digits {b : Byte} {tens units : Int} (htens : 0 ≤ tens ∧ tens ≤ 9) (hunits : 0 ≤ units ∧ units ≤ 9)
    (hb : (b.toNat : Int) = 16 * tens + units) : ValidBcd b ∧ (bcd b : Int) = 10 * tens + units := by
  unfold ValidBcd bcd
  omega

section

variable {a m : Byte} (c : Bool) (ha : ValidBcd a) (hm : ValidBcd m)

include ha hm

theorem tensSum_le : tensSum a m c ≤ 19 := by
  unfold ValidBcd at ha hm
  have hc := c.toNat_le
  unfold tensSum unitsSum
  omega

/-- On digits 0 to 9 the correction by 6 turns a carry out of 9 into one out of 15, at each digit (R160). -/
theorem adcFinal_of_validBcd : adcFinal a.toNat m.toNat c.toNat =
    256 * (tensSum a m c / 10) + 16 * (tensSum a m c % 10) + unitsSum a m c % 10 := by
  have htens := tensSum_le c ha hm
  unfold ValidBcd at ha hm
  have hc := c.toNat_le
  have hlow : adcLow a.toNat m.toNat c.toNat = 16 * (unitsSum a m c / 10) + unitsSum a m c % 10 := by
    unfold adcLow unitsSum
    split <;> omega
  have hsum : adcSum a.toNat m.toNat c.toNat = 16 * tensSum a m c + unitsSum a m c % 10 := by
    rw [adcSum, hlow, tensSum]
    omega
  rw [adcFinal, hsum]
  split <;> omega

/-- On digits 0 to 9 the correction by 6 turns a borrow of 10 into one of 16, at each digit (R161). -/
theorem toNat_sbcDecimalResult_of_validBcd :
    ((sbcDecimalResult a m c).toNat : Int) = 16 * (tensDiff a m c % 10) + unitsDiff a m c % 10 := by
  unfold ValidBcd at ha hm
  have hc := c.toNat_le
  have hlow : sbcLow a.toNat m.toNat c.toNat = 16 * (unitsDiff a m c / 10) + unitsDiff a m c % 10 := by
    unfold sbcLow unitsDiff
    split <;> omega
  have hdiff : sbcDiff a.toNat m.toNat c.toNat = 16 * tensDiff a m c + unitsDiff a m c % 10 := by
    rw [sbcDiff, hlow, tensDiff]
    omega
  have htens : -10 ≤ tensDiff a m c ∧ tensDiff a m c ≤ 9 := by
    unfold tensDiff unitsDiff
    omega
  rw [toNat_sbcDecimalResult, hdiff]
  split <;> omega

/-- The packed decimal sum modulo 100, with C the carry out of 99 (R160). -/
theorem adcDecimal_of_validBcd : ValidBcd (adcDecimal a m c).byte ∧
    bcd (adcDecimal a m c).byte + 100 * (adcDecimal a m c).c.toNat = bcd a + bcd m + c.toNat := by
  obtain ⟨hbyte, hcarry, -⟩ := adcDecimal_spec a m c
  rw [adcFinal_of_validBcd c ha hm] at hbyte hcarry
  have hdigits : ((adcDecimal a m c).byte.toNat : Int) =
      16 * (tensSum a m c % 10 : Nat) + (unitsSum a m c % 10 : Nat) := by omega
  obtain ⟨hvalid, hbcd⟩ := validBcd_and_bcd_of_digits (by omega) (by omega) hdigits
  have hsum : bcd a + bcd m + c.toNat = 10 * tensSum a m c + unitsSum a m c % 10 := by
    unfold bcd tensSum unitsSum
    omega
  have hc : (adcDecimal a m c).c.toNat = tensSum a m c / 10 := by
    have htens := tensSum_le c ha hm
    rw [hcarry, Bool.toNat, Bool.cond_decide]
    split <;> omega
  exact ⟨hvalid, by omega⟩

/-- The packed decimal difference modulo 100 (R161). -/
theorem sbcDecimalResult_of_validBcd : ValidBcd (sbcDecimalResult a m c) ∧
    (bcd (sbcDecimalResult a m c) : Int) = (bcd a - bcd m - (1 - c.toNat : Int)) % 100 := by
  have hdigits := toNat_sbcDecimalResult_of_validBcd c ha hm
  obtain ⟨hvalid, hbcd⟩ := validBcd_and_bcd_of_digits (by omega) (by omega) hdigits
  have hdiff : bcd a - bcd m - (1 - c.toNat : Int) = 10 * tensDiff a m c + unitsDiff a m c % 10 := by
    unfold bcd tensDiff unitsDiff
    omega
  exact ⟨hvalid, by omega⟩

/-- On packed decimal operands the binary subtraction borrows exactly when the decimal one does (R161). -/
theorem addBin_not_carry_of_validBcd : (addBin a (~~~m) c).c = true ↔ bcd m + 1 ≤ bcd a + c.toNat := by
  unfold ValidBcd at ha hm
  have hc := c.toNat_le
  rw [addBin_not_carry, decide_eq_true_eq]
  unfold bcd
  omega

end

/-- Settles O20: the digits of the results are the decimal sum's and difference's, and C is the carry of the sum and the borrow of the
binary subtraction. -/
theorem decimalModeComputesDecimalNumbers : Obligations.DecimalModeComputesDecimalNumbers := by
  intro a m c ha hm
  obtain ⟨hvalid, hdifference⟩ := sbcDecimalResult_of_validBcd c ha hm
  exact ⟨adcDecimal_of_validBcd c ha hm, hvalid, hdifference, addBin_not_carry_of_validBcd c ha hm⟩

/-! ## Logic -/

/-- An instruction that puts `op A M` in A and gives it to `SetZN` combines by `op` (R151). -/
theorem combines_of_exec {f : Source → Instr} {op : Byte → Byte → Byte}
    (h : ∀ src s, exec (f src) s = .next (retire (f src) (readSource src s).crossed
      (((readSource src s).state.setA (op s.a (readSource src s).byte)).setZN (op s.a (readSource src s).byte)))) :
    Combines f op := by
  intro src s
  exact ⟨_, h src s, rfl, readSource_flags_setZN src _ s, readSource_x src s, readSource_y src s, readSource_sp src s,
    retired_and_kept_of_readSource (h src s) rfl rfl rfl⟩

/-- Settles O16: the three operations are those of `BitVec`, which work bit by bit. -/
theorem logicCombinesBitwise : Obligations.LogicCombinesBitwise := by
  refine ⟨⟨_, ?andBits, combines_of_exec fun _ _ => rfl⟩, ⟨_, ?oraBits, combines_of_exec fun _ _ => rfl⟩,
    ⟨_, ?eorBits, combines_of_exec fun _ _ => rfl⟩, fun b w => ?andEncodings, fun b w => ?oraEncodings, fun b w => ?eorEncodings⟩
  case andBits => exact fun _ _ _ => BitVec.getLsbD_and
  case oraBits => exact fun _ _ _ => BitVec.getLsbD_or
  case eorBits => exact fun _ _ _ => BitVec.getLsbD_xor
  case andEncodings | oraEncodings | eorEncodings =>
    refine ⟨?_, ?_, ?_, ?_, ?_, ?_, ?_, ?_⟩ <;> exact encoded_of_row rfl

/-! ## Instructions that write flags only -/

/-- The shape of BIT and the compares: the flags become `g` of them, between the operand read and `retire` (R155, R157). -/
theorem completes_of_setFlags {i : Instr} {src : Source} {s : State} (g : Flags → Flags)
    (h : exec i s = .next (retire i (readSource src s).crossed
      ((readSource src s).state.setFlags (g (readSource src s).state.flags)))) :
    Completes i s (fun t => t.flags = g s.flags ∧ SameRegisters s t ∧ Retired i (readSource src s).crossed s t ∧ Kept s t) :=
  ⟨_, h, congrArg g (readSource_flags src s), ⟨readSource_a src s, readSource_x src s, readSource_y src s, readSource_sp src s⟩,
    retired_and_kept_of_readSource h rfl rfl rfl⟩

theorem and_beq_zero (a m : Byte) : (a &&& m == 0#8) = true ↔ ∀ k, (a.getLsbD k && m.getLsbD k) = false := by
  simp only [beq_iff_eq, BitVec.zero_iff_eq_false, BitVec.getLsbD_and]

/-- Settles O17: BIT reads its byte as any read instruction does and writes the flags only. -/
theorem bitTestsWithoutChangingA : Obligations.BitTestsWithoutChangingA := by
  refine ⟨fun m s => ?effect, fun b w => ⟨encoded_of_row rfl, encoded_of_row rfl⟩⟩
  obtain ⟨t, hexec, hflags, hrest⟩ :=
    completes_of_setFlags (i := .bit m) (src := .mem m) (s := s) (·.bitTest s.a (readMem m s).byte) rfl
  refine ⟨t, hexec, ?_⟩
  simp only [hflags]
  exact ⟨and_beq_zero _ _, rfl, rfl, rfl, rfl, rfl, hrest⟩

/-! ## Compares -/

/-- Z and N of a comparison, from the two bytes (R157). -/
theorem sub_beq_zero (reg m : Byte) : (reg - m == 0#8) = decide (reg = m) := by
  rw [beq_eq_decide, decide_eq_decide]
  exact sub_eq_zero

theorem sub_getLsbD_seven (reg m : Byte) : (reg - m).getLsbD 7 = decide ((reg.toNat + 256 - m.toNat) % 256 ≥ 128) := by
  have hm : m.toNat < 256 := m.isLt
  have hsub : (reg - m).toNat = (reg.toNat + 256 - m.toNat) % 256 := by
    rw [BitVec.toNat_sub]
    omega
  rw [getLsbD_seven, hsub]

/-- An instruction that between its operand read and `retire` writes the flags of `Compare` only (R157). -/
theorem compares_of_exec {f : Source → Instr} {reg : State → Byte}
    (h : ∀ src s, exec (f src) s = .next (retire (f src) (readSource src s).crossed
      ((readSource src s).state.setFlags ((readSource src s).state.flags.compare (reg s) (readSource src s).byte)))) :
    Compares f reg := by
  intro src s
  obtain ⟨t, hexec, hflags, hrest⟩ := completes_of_setFlags (·.compare (reg s) (readSource src s).byte) (h src s)
  refine ⟨t, hexec, ?_⟩
  simp only [hflags]
  exact ⟨rfl, sub_beq_zero _ _, sub_getLsbD_seven _ _, rfl, rfl, rfl, hrest⟩

/-- Settles O21: the three differ in the register that they compare. -/
theorem comparesSetCarryWhenNotLess : Obligations.ComparesSetCarryWhenNotLess := by
  refine ⟨compares_of_exec fun _ _ => rfl, compares_of_exec fun _ _ => rfl, compares_of_exec fun _ _ => rfl,
    fun b w => ?cmpEncodings, fun b w => ?indexEncodings⟩
  case cmpEncodings => refine ⟨?_, ?_, ?_, ?_, ?_, ?_, ?_, ?_⟩ <;> exact encoded_of_row rfl
  case indexEncodings => refine ⟨?_, ?_, ?_, ?_, ?_, ?_⟩ <;> exact encoded_of_row rfl

end Sys2Proof.Machine
end

section
/-! PROOFS. Increments, decrements, shifts and rotates (`spec/44_incdec_shift.md`): the read-modify-write shape (R170), the moved byte on
numbers (R177), and the rotates as rotations of a 9-bit word (LAW8 of spec/95). -/

namespace Sys2Proof.Machine

open Sys2Proof.Safety

/-! ## A read-modify-write -/

theorem modifyByte_stored (i : Instr) (m : MemMode) (f : Byte → Byte) (g : Flags → Byte → Flags) (s : State) :
    Stored (resolve m s).addr (f (readMem m s).byte) s (modifyByte i m f g s) := by
  simp [Stored, modifyByte_read]

theorem modifyByte_sameMemoryOutside (i : Instr) (m : MemMode) (f : Byte → Byte) (g : Flags → Byte → Flags) (s : State) :
    SameMemoryOutside [(resolve m s).addr] s (modifyByte i m f g s) := by
  intro a ha
  rw [modifyByte_read, if_neg fun h => ha (List.mem_singleton.2 h.1)]

/-- An instruction whose meaning is `modifyByte` sends one byte to E, sets the flags, and leaves every register alone (R170). -/
theorem completes_of_modifyByte {i : Instr} {m : MemMode} {f : Byte → Byte} {g : Flags → Byte → Flags} {s : State}
    (h : exec i s = .next (modifyByte i m f g s)) : Completes i s (fun t =>
      Stored (resolve m s).addr (f (readMem m s).byte) s t ∧ SameMemoryOutside [(resolve m s).addr] s t ∧
        t.flags = g s.flags (readMem m s).byte ∧ SameRegisters s t ∧ Retired i (resolve m s).crossed s t ∧
        SameSystem s t ∧ LinesKept s t) := by
  have hk := exec_keeps h
  have hregisters : SameRegisters s (modifyByte i m f g s) :=
    ⟨modifyByte_a _ _ _ _ _, modifyByte_x _ _ _ _ _, modifyByte_y _ _ _ _ _, modifyByte_sp _ _ _ _ _⟩
  have hretired : Retired i (resolve m s).crossed s (modifyByte i m f g s) :=
    retired_of_exec h (modifyByte_pc _ _ _ _ _) (modifyByte_out_cycles _ _ _ _ _) (modifyByte_out_outcomes _ _ _ _ _)
  exact ⟨_, h, modifyByte_stored _ _ _ _ _, modifyByte_sameMemoryOutside _ _ _ _ _, modifyByte_flags _ _ _ _ _, hregisters,
    hretired, ⟨hk.run, hk.params⟩, hk.lines⟩

theorem ofNat_of_toNat_eq {b : Byte} {n : Nat} (h : b.toNat = n) : BitVec.ofNat 8 n = b := by
  rw [← h, BitVec.ofNat_toNat, BitVec.setWidth_eq]

/-! ## Increments and decrements -/

theorem toNat_add_one (v : Byte) : (v + 1#8).toNat = (v.toNat + 1) % 256 := BitVec.toNat_add v 1#8

/-- Taking one away modulo 256 is adding 255 (R172). -/
theorem toNat_sub_one (v : Byte) : (v - 1#8).toNat = (v.toNat + 255) % 256 := by
  rw [BitVec.toNat_sub, Nat.add_comm]
  rfl

/-- An instruction that by `modifyByte` sends `op M` to E and gives it to `SetZN` modifies by `op` (R171, R172). -/
theorem modifies_of_exec {f : MemMode → Instr} {op : Byte → Byte} {r : Byte → Nat} (hop : ∀ v, (op v).toNat = r v)
    (h : ∀ m s, exec (f m) s = .next (modifyByte (f m) m op (fun g v => g.setZN (op v)) s)) : Modifies f r := by
  intro m s
  obtain ⟨t, hexec, hstored, houtside, hflags, hrest⟩ := completes_of_modifyByte (h m s)
  rw [setZN_eq] at hflags
  refine ⟨t, hexec, ?_⟩
  rw [ofNat_of_toNat_eq (hop _)]
  exact ⟨hstored, houtside, hflags, hrest⟩

/-- Settles O22: INC and DEC are the read-modify-write of adding and of taking away one. -/
theorem incDecMemoryModifyOneByte : Obligations.IncDecMemoryModifyOneByte := by
  refine ⟨modifies_of_exec toNat_add_one fun _ _ => rfl, modifies_of_exec toNat_sub_one fun _ _ => rfl,
    fun b w => ?incEncodings, fun b w => ?decEncodings⟩
  case incEncodings | decEncodings => refine ⟨?_, ?_, ?_, ?_⟩ <;> exact encoded_of_row rfl

/-- Settles O23: counting writes the register and the flags, and nothing before `retire` touches PC, memory or the outputs. -/
theorem indexRegistersCountModulo256 : Obligations.IndexRegistersCountModulo256 := by
  refine ⟨?encodings, fun s => ⟨?inx, ?iny, ?dex, ?dey⟩⟩
  case encodings => refine ⟨?_, ?_, ?_, ?_⟩ <;> exact encoded_of_row rfl
  case inx | iny =>
    exact ⟨_, rfl, toNat_add_one _, setZN_eq _ _, rfl, rfl, rfl, retired_and_kept_of_exec rfl rfl rfl rfl rfl⟩
  case dex | dey =>
    exact ⟨_, rfl, toNat_sub_one _, setZN_eq _ _, rfl, rfl, rfl, retired_and_kept_of_exec rfl rfl rfl rfl rfl⟩

/-! ## The moved byte -/

theorem toNat_shiftLeft_one (v : Byte) : (v <<< 1).toNat = 2 * v.toNat % 256 := by
  rw [BitVec.toNat_shiftLeft, Nat.shiftLeft_eq, Nat.mul_comm]

theorem toNat_ushiftRight_one (v : Byte) : (v >>> 1).toNat = v.toNat / 2 := by
  rw [BitVec.toNat_ushiftRight, Nat.shiftRight_eq_div_pow]

/-- The vacated bit 0 is even, so the old Carry is added there (R181). -/
theorem toNat_rolByte (c : Bool) (v : Byte) : (rolByte c v).byte.toNat = 2 * v.toNat % 256 + c.toNat := by
  have hcarry : ((BitVec.ofBool c).setWidth 8).toNat = c.toNat := by cases c <;> rfl
  have heven : 2 * v.toNat % 256 = 2 ^ 1 * (v.toNat % 128) := by omega
  have hor := Nat.two_pow_add_eq_or_of_lt (i := 1) c.toNat_lt (v.toNat % 128)
  rw [rolByte, BitVec.toNat_or, toNat_shiftLeft_one, hcarry, heven, hor]

/-- The vacated bit 7 is above the moved bits, so the old Carry is added there (R182). -/
theorem toNat_rorByte (c : Bool) (v : Byte) : (rorByte c v).byte.toNat = v.toNat / 2 + 128 * c.toNat := by
  have hcarry : ((BitVec.ofBool c).setWidth 8 <<< 7).toNat = 2 ^ 7 * c.toNat := by cases c <;> rfl
  have hlow : v.toNat / 2 < 2 ^ 7 := by
    have hv : v.toNat < 256 := v.isLt
    omega
  have hor := Nat.two_pow_add_eq_or_of_lt hlow c.toNat
  rw [rorByte, BitVec.toNat_or, toNat_ushiftRight_one, hcarry, Nat.or_comm, ← hor, Nat.add_comm]

/-! ## Shifts and rotates -/

theorem setShift_eq (f : Flags) (r : Shifted) : f.setShift r = { flagsZN f r.byte with c := r.c } := by
  rw [Flags.setShift, setZN_eq]

/-- An instruction whose meaning is `shiftTarget` of `op` on the old Carry moves a byte as `op` does, on A and on memory (R177). -/
theorem shifts_of_exec {f : Target → Instr} {op : Bool → Byte → Shifted} {r : Bool → Byte → Nat} {out : Byte → Bool}
    (hbyte : ∀ c v, (op c v).byte.toNat = r c v) (hcarry : ∀ c v, (op c v).c = out v)
    (h : ∀ t s, exec (f t) s = .next (shiftTarget (f t) t (op s.flags.c) s)) : Shifts f r out := by
  have hflags (g : Flags) (c : Bool) (v : Byte) :
      g.setShift (op c v) = { flagsZN g (BitVec.ofNat 8 (r c v)) with c := out v } := by
    rw [setShift_eq, ofNat_of_toNat_eq (hbyte c v), hcarry]
  refine ⟨fun s => ?acc, fun m s => ?mem⟩
  case acc =>
    exact ⟨_, h .acc s, hbyte _ _, hflags _ _ _, rfl, rfl, rfl, retired_and_kept_of_exec (h .acc s) rfl rfl rfl rfl⟩
  case mem =>
    have hmodify : exec (f (.mem m)) s = .next (modifyByte (f (.mem m)) m (fun v => (op s.flags.c v).byte)
      (fun g v => g.setShift (op s.flags.c v)) s) := h (.mem m) s
    obtain ⟨t, hexec, hstored, houtside, ht, hrest⟩ := completes_of_modifyByte hmodify
    rw [hflags] at ht
    rw [← ofNat_of_toNat_eq (hbyte _ _)] at hstored
    exact ⟨t, hexec, hstored, houtside, ht, hrest⟩

/-- Settles O24: the four differ in the moved byte; each encoding is a row of the table. -/
theorem shiftsMoveOneBitThroughCarry : Obligations.ShiftsMoveOneBitThroughCarry := by
  have hasl : Shifts .asl (fun _ v => 2 * v.toNat % 256) (fun v => v.getLsbD 7) :=
    shifts_of_exec (op := fun _ => aslByte) (fun _ => toNat_shiftLeft_one) (fun _ _ => rfl) fun _ _ => rfl
  have hlsr : Shifts .lsr (fun _ v => v.toNat / 2) (fun v => v.getLsbD 0) :=
    shifts_of_exec (op := fun _ => lsrByte) (fun _ => toNat_ushiftRight_one) (fun _ _ => rfl) fun _ _ => rfl
  refine ⟨hasl, hlsr, shifts_of_exec toNat_rolByte (fun _ _ => rfl) fun _ _ => rfl,
    shifts_of_exec toNat_rorByte (fun _ _ => rfl) fun _ _ => rfl, ?accumulator, fun b w => ?asl, fun b w => ?lsr,
    fun b w => ?rol, fun b w => ?ror⟩
  case accumulator | asl | lsr | rol | ror => refine ⟨?_, ?_, ?_, ?_⟩ <;> exact encoded_of_row rfl

/-! ## Nine rotations -/

/-- One run of a rotate on A: `shiftTarget` of `op` on the old Carry (R177). -/
def runShiftA (i : Instr) (op : Bool → Byte → Shifted) (s : State) : State := shiftTarget i .acc (op s.flags.c) s

/-- Carry above A: the 9-bit word that the rotates rotate (LAW8). -/
def carryA (s : State) : BitVec 9 := BitVec.cons s.flags.c s.a

theorem a_and_c_of_carryA_eq {s t : State} (h : carryA t = carryA s) : t.a = s.a ∧ t.flags.c = s.flags.c := by
  have ha := congrArg (BitVec.setWidth 8) h
  have hc := congrArg BitVec.msb h
  simp only [carryA, BitVec.setWidth_cons, BitVec.msb_cons] at ha hc
  exact ⟨ha, hc⟩

/-- ROL rotates Carry and byte to the left (R181). -/
theorem cons_rolByte (c : Bool) (v : Byte) :
    BitVec.cons (rolByte c v).c (rolByte c v).byte = (BitVec.cons c v).rotateLeft 1 := by
  ext k hk
  rw [BitVec.getElem_cons, BitVec.getElem_rotateLeft]
  interval_cases k <;> simp [rolByte, BitVec.getElem_cons, BitVec.getLsbD_eq_getElem]

/-- ROR rotates Carry and byte to the right (R182). -/
theorem cons_rorByte (c : Bool) (v : Byte) :
    BitVec.cons (rorByte c v).c (rorByte c v).byte = (BitVec.cons c v).rotateRight 1 := by
  ext k hk
  rw [BitVec.getElem_cons, BitVec.getElem_rotateRight]
  interval_cases k <;> simp [rorByte, BitVec.getElem_cons, BitVec.getLsbD_eq_getElem]

/-- A map that takes each bit from the place `d` above it, modulo `n`, is a rotation, so that its n-th iterate puts every bit back. -/
theorem iterate_eq_self_of_getLsbD {n d : Nat} {f : BitVec n → BitVec n}
    (h : ∀ x i, i < n → (f x).getLsbD i = x.getLsbD ((i + d) % n)) (x : BitVec n) : f^[n] x = x := by
  have hbit (k : Nat) : ∀ i < n, (f^[k] x).getLsbD i = x.getLsbD ((i + k * d) % n) := by
    induction k with
    | zero =>
      intro i hi
      rw [Nat.zero_mul, Nat.add_zero, Nat.mod_eq_of_lt hi]
      rfl
    | succ k ih =>
      intro i hi
      rw [Function.iterate_succ_apply', h _ i hi, ih _ (Nat.mod_lt _ (by omega)), Nat.mod_add_mod, Nat.add_assoc,
        Nat.succ_mul, Nat.add_comm d]
  apply BitVec.eq_of_getLsbD_eq
  intro i hi
  rw [hbit n i hi, Nat.add_mul_mod_self_left, Nat.mod_eq_of_lt hi]

theorem rotateLeft_one_iterate_nine (x : BitVec 9) : (BitVec.rotateLeft · 1)^[9] x = x := by
  refine iterate_eq_self_of_getLsbD (d := 8) (fun y i hi => ?_) x
  rw [BitVec.getLsbD_rotateLeft]
  interval_cases i <;> rfl

theorem rotateRight_one_iterate_nine (x : BitVec 9) : (BitVec.rotateRight · 1)^[9] x = x := by
  refine iterate_eq_self_of_getLsbD (d := 1) (fun y i hi => ?_) x
  rw [BitVec.getLsbD_rotateRight]
  interval_cases i <;> rfl

/-- Nine runs of an instruction that moves A by `op` restore A and Carry when `op` moves the 9-bit word by `rot`, of which nine
restore every word. -/
theorem nine_shifts_restore {i : Instr} {op : Bool → Byte → Shifted} {rot : BitVec 9 → BitVec 9}
    (hexec : ∀ s, exec i s = .next (runShiftA i op s))
    (hrot : ∀ c v, BitVec.cons (op c v).c (op c v).byte = rot (BitVec.cons c v)) (hnine : ∀ x, rot^[9] x = x) (s : State) :
    ∃ t : Nat → State, t 0 = s ∧ (∀ k, exec i (t k) = .next (t (k + 1))) ∧ (t 9).a = s.a ∧ (t 9).flags.c = s.flags.c := by
  have hrun : Function.Semiconj carryA (runShiftA i op) rot := fun t => hrot t.flags.c t.a
  have hstep (k : Nat) : exec i ((runShiftA i op)^[k] s) = .next ((runShiftA i op)^[k + 1] s) := by
    rw [hexec, Function.iterate_succ_apply']
  have hcarryA : carryA ((runShiftA i op)^[9] s) = carryA s := by
    rw [hrun.iterate_right 9 s, hnine]
  exact ⟨((runShiftA i op)^[·] s), rfl, hstep, a_and_c_of_carryA_eq hcarryA⟩

/-- Settles O25: on Carry and A together the rotates are rotations by one of nine bits. -/
theorem nineRotationsRestoreAAndC : Obligations.NineRotationsRestoreAAndC := by
  rintro s i (rfl | rfl)
  case inl => exact nine_shifts_restore (op := rolByte) (fun _ => rfl) cons_rolByte rotateLeft_one_iterate_nine s
  case inr => exact nine_shifts_restore (op := rorByte) (fun _ => rfl) cons_rorByte rotateRight_one_iterate_nine s

end Sys2Proof.Machine
end

section
/-! PROOFS. Jumps, subroutines, BRK, RTI and the conditional branches (`spec/45_control_flow.md`): what a word pulled from the stack is
(R9, R140), the end of an instruction that sets PC (R190), what an interrupt leaves on the stack
(R196, R242), and the effect of each instruction. -/

namespace Sys2Proof.Machine

open Sys2Proof.Safety

/-! ## A word on the stack -/

/-- The word pulled from SP upward, its high byte read in the state that the low byte's read leaves (R9). -/
theorem pull16_word (s : State) :
    (pull16 s).1 = word ((pull8 s).2.portByte (stackAddr (s.sp + 2#8))) (s.portByte (stackAddr (s.sp + 1#8))) := by
  have hsp : (pull8 s).2.sp + 1#8 = s.sp + 2#8 := by
    rw [pull8_sp, BitVec.add_assoc]
    rfl
  simp only [pull16, pull8_byte, hsp]

theorem toNat_pull16_plain {s : State} (hlow : plainRam s.params (stackAddr (s.sp + 1#8)) = true)
    (hhigh : plainRam s.params (stackAddr (s.sp + 2#8)) = true) :
    (pull16 s).1.toNat = wordIn s.mem (stackAddr (s.sp + 1#8)) (stackAddr (s.sp + 2#8)) := by
  have hhigh : plainRam (pull8 s).2.params (stackAddr (s.sp + 2#8)) = true := by rwa [pull8_params]
  rw [pull16_word, toNat_word, portByte_plain hlow, portByte_plain hhigh, pull8_mem, wordIn, Nat.add_comm]

section

variable {a : Word} {v : Byte} {s t u : State}

/-- A byte sent to plain RAM is what the port reads there (R65). -/
theorem portByte_eq_of_stored (hplain : plainRam s.params a = true) (hstored : Stored a v s t) (hparams : t.params = s.params) :
    t.portByte a = v := by
  rw [portByte_plain (by rwa [hparams])]
  exact hstored.trans (if_pos hplain)

theorem stored_of_read_eq (h : Stored a v s t) (hread : u.mem.read a.toNat = t.mem.read a.toNat) : Stored a v s u :=
  hread.trans h

theorem sameMemoryOutside_of_mem_eq {stored : List Word} (h : SameMemoryOutside stored s t) (hmem : u.mem = t.mem) :
    SameMemoryOutside stored s u := fun b hb => by rw [hmem, h b hb]

/-- The two bytes of a pushed word lie at SP and below it (R9); the second push does not come round to the first's address. -/
theorem push16_stored (w : Word) (s : State) :
    Stored (stackAddr s.sp) (hi w) s (push16 w s) ∧ Stored (stackAddr (s.sp - 1#8)) (lo w) s (push16 w s) := by
  have hne : stackAddr s.sp ≠ stackAddr (s.sp - 1#8) := stackAddr_inj.not.2 (by bv_omega)
  constructor
  case left =>
    have hsecond := push8_sameMemoryOutside (lo w) (push8 (hi w) s) (stackAddr s.sp) (by simpa using hne)
    exact stored_of_read_eq (push8_stored (hi w) s) hsecond
  case right =>
    have hfirst := push8_sameMemoryOutside (hi w) s (stackAddr (s.sp - 1#8)) (by simpa using hne.symm)
    have hsecond := push8_stored (lo w) (push8 (hi w) s)
    rwa [Stored, push8_sp, push8_params, hfirst] at hsecond

/-- The next `Pull16` gives a pushed word back in every state that has SP, its two bytes and the parameters as the push left them. -/
theorem pull16_eq_of_stored {w : Word} (hplain : plainRam s.params (stackAddr s.sp) = true)
    (hplain' : plainRam s.params (stackAddr (s.sp - 1#8)) = true) (hhigh : Stored (stackAddr s.sp) (hi w) s t)
    (hlow : Stored (stackAddr (s.sp - 1#8)) (lo w) s t) (hsp : t.sp = s.sp - 2#8) (hparams : t.params = s.params) :
    (pull16 t).1 = w := by
  have hbelow : t.sp + 1#8 = s.sp - 1#8 := by rw [hsp]; bv_omega
  have htop : t.sp + 2#8 = s.sp := by rw [hsp, BitVec.sub_add_cancel]
  have hhigh : Stored (stackAddr s.sp) (hi w) s (pull8 t).2 := stored_of_read_eq hhigh (by rw [pull8_mem])
  rw [pull16_word, hbelow, htop, portByte_eq_of_stored hplain hhigh (by rw [pull8_params, hparams]),
    portByte_eq_of_stored hplain' hlow hparams, word_hi_lo]

end

/-! ## The end of an instruction that sets PC -/

/-- What `retireTo` ends without extra cycles has retired to its target, and registers, flags and memory are those of the state
before it. -/
theorem completes_of_retireTo {i : Instr} {target : Word} {s u : State} (h : exec i s = .next (retireTo i target 0 u))
    (hcycles : u.out.cycles = s.out.cycles) (hout : u.out.outcomes = s.out.outcomes) : Completes i s (fun t =>
      RetiredTo i target s t ∧ t.mem = u.mem ∧ t.sp = u.sp ∧ t.a = u.a ∧ t.x = u.x ∧ t.y = u.y ∧ t.flags = u.flags) := by
  have hsum : (retireTo i target 0 u).out.cycles = s.out.cycles + minCycles i := by
    rw [retireTo_out_cycles, hcycles, Nat.add_zero]
  exact ⟨_, h, ⟨rfl, hsum, hout, exec_accesses h⟩, rfl, rfl, rfl, rfl, rfl, rfl⟩

/-! ## JMP -/

/-- The high byte of an indirect target is read at the next address, but from the start of the page when the pointer is its last
byte (R110, R192). -/
theorem nextInPage_eq (w : Word) :
    (lo w = 0xFF#8 → word (hi w) (lo w + 1#8) = word (hi w) 0x00#8) ∧ (lo w ≠ 0xFF#8 → word (hi w) (lo w + 1#8) = w + 1#16) := by
  refine ⟨fun h => ?wraps, fun h => ?next⟩
  case wraps => rw [h]; rfl
  case next =>
    have hlow : w.toNat % 256 ≠ 255 := fun e => h (BitVec.eq_of_toNat_eq (by rw [toNat_lo, e]; rfl))
    apply BitVec.eq_of_toNat_eq
    rw [toNat_nextInPage, BitVec.toNat_add]
    have hw : w.toNat < 65536 := w.isLt
    have hone : (1#16).toNat = 1 := rfl
    omega

theorem completes_jmp (j : JumpTarget) (s : State) : Completes (.jmp j) s (fun t =>
    RetiredTo (.jmp j) (resolveJump j s).1 s t ∧ SameRegisters s t ∧ t.flags = s.flags ∧ Kept s t) := by
  obtain ⟨t, ht, hretired, hmem, hsp, ha, hx, hy, hflags⟩ :=
    completes_of_retireTo (i := .jmp j) rfl (resolveJump_out_cycles j s) (resolveJump_out_outcomes j s)
  have hregisters : SameRegisters s t :=
    ⟨ha.trans (resolveJump_a j s), hx.trans (resolveJump_x j s), hy.trans (resolveJump_y j s), hsp.trans (resolveJump_sp j s)⟩
  exact ⟨t, ht, hretired, hregisters, hflags.trans (resolveJump_flags j s), kept_of_exec ht (hmem.trans (resolveJump_mem j s))⟩

/-- Settles O26: both forms end at the resolved target; the indirect one is `readPair` inside the pointer's page. -/
theorem jmpSetsPcWithThePageWrap : Obligations.JmpSetsPcWithThePageWrap := by
  refine ⟨fun w s => completes_jmp (.absolute w) s, fun w s => ?indirect, fun w => ⟨encoded_of_row rfl, encoded_of_row rfl⟩⟩
  obtain ⟨hwraps, hnext⟩ := nextInPage_eq w
  obtain ⟨t, ht, hretired, hrest⟩ := completes_jmp (.indirect w) s
  refine ⟨_, hwraps, hnext, t, ht, hretired, fun hlow hhigh => ?plain, hrest⟩
  obtain ⟨hpc, -⟩ := hretired
  rw [hpc]
  exact readPair_plain hlow hhigh

/-! ## Subroutines -/

/-- Settles O27: JSR is one `Push16` and the jump. -/
theorem jsrPushesItsLastByteAddress : Obligations.JsrPushesItsLastByteAddress := by
  refine ⟨fun w => encoded_of_row rfl, fun w s => ⟨s.pc + 2#16, BitVec.toNat_add s.pc 2#16, ?effect⟩⟩
  obtain ⟨t, ht, hretired, hmem, hsp, ha, hx, hy, hflags⟩ :=
    completes_of_retireTo (i := .jsr w) rfl (push16_out_cycles _ s) (push16_out_outcomes _ s)
  obtain ⟨hhigh, hlow⟩ := push16_stored (s.pc + 2#16) s
  have hk := exec_keeps ht
  exact ⟨t, ht, stored_of_read_eq hhigh (by rw [hmem]), stored_of_read_eq hlow (by rw [hmem]),
    sameMemoryOutside_of_mem_eq (push16_sameMemoryOutside _ s) hmem, hsp.trans (push16_sp _ s), ha.trans (push16_a _ s),
    hx.trans (push16_x _ s), hy.trans (push16_y _ s), hflags.trans (push16_flags _ s), hretired, ⟨hk.run, hk.params⟩, hk.lines⟩

/-- Settles O28: RTS is one `Pull16` and the jump past the pulled address. -/
theorem rtsPullsAndAddsOne : Obligations.RtsPullsAndAddsOne := by
  refine ⟨encoded_of_row rfl, fun s => ?effect⟩
  obtain ⟨t, ht, hretired, hmem, hsp, ha, hx, hy, hflags⟩ :=
    completes_of_retireTo (i := .rts) rfl (pull16_out_cycles s) (pull16_out_outcomes s)
  refine ⟨t, ht, hretired, fun hlow hhigh => ?plain, hsp.trans (pull16_sp s), ha.trans (pull16_a s), hx.trans (pull16_x s),
    hy.trans (pull16_y s), hflags.trans (pull16_flags s), kept_of_exec ht (hmem.trans (pull16_mem s))⟩
  obtain ⟨hpc, -⟩ := hretired
  rw [hpc, BitVec.toNat_add, toNat_pull16_plain hlow hhigh]
  rfl

/-- Settles O33: by O27 the return address is on the stack, and by O28 the RTS continues after it. -/
theorem rtsUndoesJsr : Obligations.RtsUndoesJsr := by
  intro w s t ht hplain hplain' t' hsp' hparams' hread hread'
  obtain ⟨-, hjsr⟩ := jsrPushesItsLastByteAddress
  obtain ⟨-, hrts⟩ := rtsPullsAndAddsOne
  obtain ⟨ret, hret, t₀, ht₀, hhigh, hlow, -, hsp, -, -, -, -, -, ⟨-, hparams⟩, -⟩ := hjsr w s
  obtain rfl : t₀ = t := Host.Outcome.next.inj (ht₀.symm.trans ht)
  obtain ⟨u, hu, ⟨hpc, -⟩, -, husp, -⟩ := hrts t'
  have hpulled : (pull16 t').1 = ret := pull16_eq_of_stored hplain hplain' (stored_of_read_eq hhigh hread)
    (stored_of_read_eq hlow hread') (hsp'.trans hsp) (hparams'.trans hparams)
  refine ⟨u, hu, ?pc, by rw [husp, hsp', hsp, BitVec.sub_add_cancel]⟩
  have hnext : (ret + 1#16).toNat = (ret.toNat + 1) % 65536 := BitVec.toNat_add ret 1#16
  rw [hpc, hpulled, hnext, hret]
  omega

/-! ## RTI -/

theorem returnFromInterrupt_pc (s : State) : (returnFromInterrupt s).pc = (pull16 (pull8 s).2).1 := by
  simp only [returnFromInterrupt, State.setPc_pc, pull16_setFlags]

/-- Settles O29: RTI is `returnFromInterrupt`, whose word is pulled one place above the status byte. -/
theorem rtiRestoresFlagsAndPc : Obligations.RtiRestoresFlagsAndPc := by
  refine ⟨encoded_of_row rfl, fun s => ?effect⟩
  obtain ⟨t, ht, hretired, hmem, hsp, ha, hx, hy, hflags⟩ :=
    completes_of_retireTo (i := .rti) rfl (returnFromInterrupt_out_cycles s) (returnFromInterrupt_out_outcomes s)
  rw [returnFromInterrupt_pc] at hretired
  refine ⟨t, ht, hflags.trans (returnFromInterrupt_flags s), hretired, fun hlow hhigh => ?plain,
    hsp.trans (returnFromInterrupt_sp s), ha.trans (returnFromInterrupt_a s), hx.trans (returnFromInterrupt_x s),
    hy.trans (returnFromInterrupt_y s), kept_of_exec ht (hmem.trans (returnFromInterrupt_mem s))⟩
  have hlow' : (pull8 s).2.sp + 1#8 = s.sp + 2#8 := by rw [pull8_sp]; bv_omega
  have hhigh' : (pull8 s).2.sp + 2#8 = s.sp + 3#8 := by rw [pull8_sp]; bv_omega
  obtain ⟨hpc, -⟩ := hretired
  rw [hpc, toNat_pull16_plain (by rwa [hlow', pull8_params]) (by rwa [hhigh', pull8_params]), hlow', hhigh', pull8_mem]

/-! ## BRK -/

/-- The stores of an interrupt sequence are the same for every vector, even one in the stack page. -/
theorem stored_of_takeInterrupt {ret : Word} {brk : Bool} {vec : Word} {s t : State}
    (h : t.mem = (takeInterrupt ret brk vec s).mem) :
    Stored (stackAddr s.sp) (hi ret) s t ∧ Stored (stackAddr (s.sp - 1#8)) (lo ret) s t ∧
      Stored (stackAddr (s.sp - 2#8)) (statusByte brk s.flags) s t := by
  rw [takeInterrupt_mem, ← takeInterrupt_mem ret brk vecIrq] at h
  obtain ⟨hhigh, hlow, hstatus, -⟩ := takeInterrupt_taken ret brk vecIrq s (by decide) (by decide)
  exact ⟨stored_of_read_eq hhigh (by rw [h]), stored_of_read_eq hlow (by rw [h]), stored_of_read_eq hstatus (by rw [h])⟩

/-- The interrupt is taken alike when an outcome is signalled and cycles are put out after it. -/
theorem interruptTaken_signal {ret : Word} {brk : Bool} {vec : Word} {s t : State} (h : InterruptTaken ret brk vec s t)
    (o : Signal) (n : Nat) : InterruptTaken ret brk vec s ((t.signal o).addCycles n) :=
  interruptTaken_congr h rfl rfl rfl rfl rfl rfl rfl rfl rfl

/-- The interrupt is taken alike when it ends a signalling instruction part. -/
theorem interruptTaken_retireTo {ret : Word} {brk : Bool} {vec : Word} {s t : State} (h : InterruptTaken ret brk vec s t)
    (i : Instr) (o : Signal) (n : Nat) : InterruptTaken ret brk vec s (retireTo i t.pc n (t.signal o)) :=
  interruptTaken_congr h rfl rfl rfl rfl rfl rfl rfl rfl rfl

/-- The NMI service takes the interrupt from the state at the boundary: it differs in the latch only (R239, R242). -/
theorem serviceNmi_taken (s : State) : InterruptTaken s.pc false vecNmi s (serviceNmi s) := by
  have htaken := takeInterrupt_taken s.pc false vecNmi (s.setLines { s.lines with nmiPending := false }) (by decide) (by decide)
  have hfrom : InterruptTaken s.pc false vecNmi s (service vecNmi (s.setLines { s.lines with nmiPending := false })) :=
    interruptTaken_from htaken rfl rfl rfl rfl rfl rfl rfl rfl rfl
  exact interruptTaken_signal hfrom _ _

theorem boundary_of_nmiPending {s : State} (h : s.lines.nmiPending = true) : boundary s = serviceNmi s := if_pos h

/-- Without a latched NMI, I masks every service (R239). -/
theorem boundary_of_masked {s : State} (hnmi : s.lines.nmiPending = false) (hmask : s.flags.i = true) : boundary s = s := by
  simp [boundary, hnmi, hmask]

/-- Settles O30: BRK is `takeInterrupt`, which sets I, so that its boundary services an NMI or nothing. -/
theorem brkTakesTheInterruptSequence : Obligations.BrkTakesTheInterruptSequence := by
  have henc : Encoded .brk [0x00#8] 7 false := encoded_of_row rfl
  refine ⟨henc, fun s => ⟨s.pc + 2#16, BitVec.toNat_add s.pc 2#16, _, rfl, ?taken, ?outcomes, ?cycles,
    (exec_keeps (i := .brk) rfl).lines, exec_accesses rfl, fun hnmi => ?nmi, fun hnmi => ?masked⟩⟩
  case taken =>
    exact interruptTaken_retireTo (takeInterrupt_taken (s.pc + 2#16) true vecIrq s (by decide) (by decide)) _ _ _
  case outcomes => rw [retireTo_out_outcomes, State.signal_out_outcomes, takeInterrupt_out_outcomes]
  case cycles =>
    obtain ⟨-, -, -, hcycles, -⟩ := henc
    rw [retireTo_out_cycles, State.signal_out_cycles, takeInterrupt_out_cycles, hcycles]
  case nmi =>
    rw [boundary_of_nmiPending hnmi]
    exact serviceNmi_taken _
  case masked =>
    exact boundary_of_masked hnmi (congrArg Flags.i (takeInterrupt_flags (s.pc + 2#16) true vecIrq s))

/-- RTI undoes an interrupt sequence in every state that has SP, its three bytes and the parameters as the sequence left them: the
status byte is pulled first, and the return address lies above it (R195). -/
theorem completes_rti_of_stored {ret : Word} {brk : Bool} {s t : State}
    (hplain : ∀ k : Byte, k.toNat < 3 → plainRam s.params (stackAddr (s.sp - k)) = true)
    (hhigh : Stored (stackAddr s.sp) (hi ret) s t) (hlow : Stored (stackAddr (s.sp - 1#8)) (lo ret) s t)
    (hstatus : Stored (stackAddr (s.sp - 2#8)) (statusByte brk s.flags) s t) (hsp : t.sp = s.sp - 3#8)
    (hparams : t.params = s.params) : Completes .rti t (fun u =>
      u.pc = ret ∧ u.sp = s.sp ∧ u.flags = s.flags ∧ SameMemory t u ∧ u.a = t.a ∧ u.x = t.x ∧ u.y = t.y) := by
  have htop : t.sp + 1#8 = s.sp - 2#8 := by rw [hsp]; bv_omega
  have hbyte : t.portByte (stackAddr (t.sp + 1#8)) = statusByte brk s.flags := by
    rw [htop]
    exact portByte_eq_of_stored (hplain 2#8 (by decide)) hstatus hparams
  have hword : (pull16 (pull8 t).2).1 = ret :=
    pull16_eq_of_stored (by simpa using hplain 0#8 (by decide)) (hplain 1#8 (by decide))
      (stored_of_read_eq hhigh (by rw [pull8_mem])) (stored_of_read_eq hlow (by rw [pull8_mem]))
      (by rw [pull8_sp, htop]) (by rw [pull8_params, hparams])
  obtain ⟨-, hrti⟩ := rtiRestoresFlagsAndPc
  obtain ⟨u, hu, hflags, ⟨hpc, -⟩, -, husp, hua, hux, huy, hmem, -⟩ := hrti t
  exact ⟨u, hu, hpc.trans hword, by rw [husp, hsp, BitVec.sub_add_cancel], by rw [hflags, hbyte, loadStatus_statusByte], hmem,
    hua, hux, huy⟩

/-- Settles O34: a sequence and BRK, by O30, leave the same three bytes, and what the later state keeps of them is all RTI reads. -/
theorem rtiUndoesAnInterrupt : Obligations.RtiUndoesAnInterrupt := by
  intro ret brk vec s t htaken hplain t' hsp' hparams' hread
  obtain ⟨b, ⟨hhigh, hlow, hstatus⟩, hsp, hparams⟩ : ∃ b, (Stored (stackAddr s.sp) (hi ret) s t ∧
      Stored (stackAddr (s.sp - 1#8)) (lo ret) s t ∧ Stored (stackAddr (s.sp - 2#8)) (statusByte b s.flags) s t) ∧
      t.sp = s.sp - 3#8 ∧ t.params = s.params := by
    obtain rfl | ⟨ht, rfl⟩ := htaken
    case inl => exact ⟨brk, stored_of_takeInterrupt rfl, takeInterrupt_sp _ _ _ _, takeInterrupt_params _ _ _ _⟩
    case inr =>
      obtain ⟨-, hbrk⟩ := brkTakesTheInterruptSequence
      obtain ⟨ret, hret, t₀, ht₀, ⟨hhigh, hlow, hstatus, -, hsp, -, -, -, -, -, -, -, hparams⟩, -⟩ := hbrk s
      obtain rfl : t₀ = t := Host.Outcome.next.inj (ht₀.symm.trans ht)
      obtain rfl : ret = s.pc + 2#16 := BitVec.eq_of_toNat_eq hret
      exact ⟨true, ⟨hhigh, hlow, hstatus⟩, hsp, hparams⟩
  exact completes_rti_of_stored hplain (stored_of_read_eq hhigh (by simpa using hread 0#8 (by decide)))
    (stored_of_read_eq hlow (hread 1#8 (by decide))) (stored_of_read_eq hstatus (hread 2#8 (by decide)))
    (hsp'.trans hsp) (hparams'.trans hparams)

/-! ## Branches -/

theorem toNat_branchCrossed (pc : Word) (d : Byte) : (branchCrossed pc d).toNat =
    if (branchTarget pc d).toNat / 256 = (pc.toNat + 2) % 65536 / 256 then 0 else 1 := by
  rw [branchCrossed_eq, Bool.toNat, Bool.cond_decide, ite_not]
  exact if_congr eq_comm rfl rfl

/-- An instruction whose meaning is `branchIf` on a Boolean that says whether `cond` holds branches on `cond` (R197). -/
theorem branches_of_exec {i : Instr} {taken : Bool} {op d : Byte} {s : State} {cond : Prop}
    (h : exec i s = .next (branchIf i taken d s)) (henc : Encoded i [op, d] 2 false) (hcond : taken = true ↔ cond) :
    Completes i s (Branches cond d s) := by
  obtain ⟨-, -, hsize, hcycles, hcross⟩ := henc
  have hregisters : SameRegisters s (branchIf i taken d s) :=
    ⟨branchIf_a _ _ _ _, branchIf_x _ _ _ _, branchIf_y _ _ _ _, branchIf_sp _ _ _ _⟩
  refine ⟨_, h, fun hc => ?taken, fun hc => ?notTaken, hregisters, branchIf_flags _ _ _ _, kept_of_exec h (branchIf_mem _ _ _ _),
    branchIf_out_outcomes _ _ _ _, congrArg (List.map accessAt) (branchIf_out_accesses _ _ _ _)⟩
  case taken =>
    obtain rfl : taken = true := hcond.2 hc
    exact ⟨toNat_branchTarget s.pc d, (retireTo_out_cycles _ _ _ _).trans (by rw [hcycles, toNat_branchCrossed, ← Nat.add_assoc, ← Nat.add_assoc]; rfl)⟩
  case notTaken =>
    obtain rfl : taken = false := Bool.eq_false_iff.2 (mt hcond.1 hc)
    refine ⟨(toNat_nextPc i s).trans (by rw [hsize]; rfl), ?_⟩
    have hretire := retire_out_cycles i false s
    rwa [hcycles, hcross] at hretire

/-- Settles O31: each branch is `branchIf` of one flag or of its negation. -/
theorem branchesTestOneFlag : Obligations.BranchesTestOneFlag := by
  refine ⟨fun d s => ⟨?bpl, ?bmi, ?bvc, ?bvs, ?bcc, ?bcs, ?bne, ?beq⟩, fun d => ?encodings⟩
  case bpl | bvc | bcc | bne => exact branches_of_exec rfl (encoded_of_row rfl) (iff_of_eq (Bool.not_eq_true' _))
  case bmi | bvs | bcs | beq => exact branches_of_exec rfl (encoded_of_row rfl) Iff.rfl
  case encodings => refine ⟨?_, ?_, ?_, ?_, ?_, ?_, ?_, ?_⟩ <;> exact encoded_of_row rfl

/-- The target and NEXT as addresses, which the numbers of R197 determine. -/
theorem takenIff_of_exec {f : Byte → Instr} {taken : Bool} {op : Byte} {s : State} {cond : Prop}
    (h : ∀ d, exec (f d) s = .next (branchIf (f d) taken d s)) (henc : ∀ d, Encoded (f d) [op, d] 2 false)
    (hcond : taken = true ↔ cond) : TakenIff f cond s := by
  intro d
  obtain ⟨t, ht, htaken, hnot, -⟩ := branches_of_exec (h d) (henc d) hcond
  refine ⟨t, ht, fun hc => ?taken, fun hc => ?notTaken⟩
  case taken =>
    obtain ⟨hpc, -⟩ := htaken hc
    rw [← toNat_branchTarget] at hpc
    exact BitVec.eq_of_toNat_eq (Int.ofNat_inj.1 hpc)
  case notTaken =>
    obtain ⟨hpc, -⟩ := hnot hc
    exact BitVec.eq_of_toNat_eq (hpc.trans (toNat_branchNext s.pc).symm)

/-- Settles O32: the compare sets each flag to its condition (O21), and the branch tests the flag. -/
theorem branchesAfterACompare : Obligations.BranchesAfterACompare := by
  intro src s f reg hf
  obtain ⟨hcmp, hcpx, hcpy, -⟩ := comparesSetCarryWhenNotLess
  obtain ⟨r, hcompares, rfl⟩ : ∃ r : State → Byte, Compares f r ∧ r s = reg := by
    obtain ⟨rfl, rfl⟩ | ⟨rfl, rfl⟩ | ⟨rfl, rfl⟩ := hf
    · exact ⟨_, hcmp, rfl⟩
    · exact ⟨_, hcpx, rfl⟩
    · exact ⟨_, hcpy, rfl⟩
  obtain ⟨t, ht, hc, hz, hn, -⟩ := hcompares src s
  refine ⟨t, ht, ?beq, ?bne, ?bcs, ?bcc, ?bmi, ?bpl⟩
  case beq | bne => exact takenIff_of_exec (fun _ => rfl) (fun _ => encoded_of_row rfl) (by simp [hz])
  case bcs | bcc => exact takenIff_of_exec (fun _ => rfl) (fun _ => encoded_of_row rfl) (by simp [hc])
  case bmi | bpl => exact takenIff_of_exec (fun _ => rfl) (fun _ => encoded_of_row rfl) (by simp [hn])

end Sys2Proof.Machine
end

section
/-! PROOFS. The flag instructions and NOP (`spec/46_flags_nop.md`): the flags written, and the end of the instruction part. -/

namespace Sys2Proof.Machine

open Sys2Proof.Safety

/-- An instruction that only writes flags before `retire` makes no access, and nothing but its flags and PC changes (R220 to R227). -/
theorem writesFlags_of_exec {i : Instr} {op : Byte} {g : Flags → Flags} (henc : Encoded i [op] 2 false)
    (h : ∀ s, exec i s = .next (retire i false (s.setFlags (g s.flags)))) : WritesFlags i op g := by
  refine ⟨henc, fun s => ⟨_, h s, ?flags, ?registers, ?retired⟩⟩
  case flags => exact retire_flags i false _
  case registers => exact ⟨retire_a _ _ _, retire_x _ _ _, retire_y _ _ _, retire_sp _ _ _⟩
  case retired => exact retired_and_kept_of_exec (h s) rfl rfl rfl rfl

/-- Settles O35: the seven differ in the flag that they write and in their row of the table. -/
theorem flagInstructionsWriteOneFlag : Obligations.FlagInstructionsWriteOneFlag := by
  refine ⟨?clc, ?sec, ?cli, ?sei, ?clv, ?cld, ?sed⟩
  case clc | sec | cli | sei | clv | cld | sed => exact writesFlags_of_exec (encoded_of_row rfl) fun _ => rfl

/-- Settles O36: NOP is a flag instruction that writes the flags back as they are. -/
theorem nopMovesPcOnly : Obligations.NopMovesPcOnly := writesFlags_of_exec (encoded_of_row rfl) fun _ => rfl

end Sys2Proof.Machine
end

section
/-! PROOFS. The step and its boundary evaluation (`spec/60_exceptions.md`): the fetch in plain RAM and the two stops (R231, R233), the
interrupt lines between steps (R235 to R238), and the choice, the sequence and the effect of a service (R239 to R242). -/

namespace Sys2Proof.Machine

open Sys2Proof.Safety

variable {s : State}

/-! ## The operations of the environment -/

/-- The request is that some active source is enabled (R236). -/
theorem irqRequest_iff : s.irqRequest = true ↔ ∃ q, q ∈ s.lines.irqActive ∧ q ∉ s.params.irqDisabled := by
  simp [State.irqRequest, irqEnabled]

theorem SourceSet.erase_erase (l : SourceSet) (q : IrqSource) :
    SourceSet.erase (SourceSet.erase l q) q = SourceSet.erase l q := by
  simp [SourceSet.erase]

/-- Settles O58: activation is insertion and deactivation is erasure, each idempotent on lists. -/
theorem irqSourcesAreASet : Obligations.IrqSourcesAreASet := by
  refine ⟨fun s q r => ⟨SourceSet.mem_insert _ q r, SourceSet.mem_erase _ q r⟩, fun s op hop => ?idempotent, fun s op => rfl,
    fun s => irqRequest_iff⟩
  obtain ⟨q, rfl | rfl⟩ := hop
  case inl => exact ⟨congrArg (fun l => s.setLines { s.lines with irqActive := l }) (SourceSet.insert_insert _ q), rfl, rfl⟩
  case inr => exact ⟨congrArg (fun l => s.setLines { s.lines with irqActive := l }) (SourceSet.erase_erase _ q), rfl, rfl⟩

/-- Settles O53, operation by operation. -/
theorem environmentKeepsTheCanonicalForms : Obligations.EnvironmentKeepsTheCanonicalForms := by
  rintro s e ⟨hmem, hirq⟩
  cases e with
  | line op => exact ⟨hmem, wf_applyLineOp hirq op⟩
  | reset d => exact ⟨(envReset_mem d s).symm ▸ hmem, envReset_lines_wf d hirq⟩
  | store base bytes =>
    refine ⟨storeBlock_wf base bytes hmem, ?_⟩
    rw [applyEnv, storeBlock_frame]
    exact hirq

/-! ## The service sequence -/

theorem service_taken (s : State) {vec : Word} (hv : vec = vecNmi ∨ vec = vecIrq) :
    InterruptTaken s.pc false vec s (service vec s) := by
  obtain rfl | rfl := hv <;> exact takeInterrupt_taken _ _ _ _ (by decide) (by decide)

theorem service_linesKept (vec : Word) (s : State) : LinesKept s (service vec s) := takeInterrupt_linesKept _ _ _ _

/-- The interrupt is taken alike when the lines change after it. -/
theorem interruptTaken_setLines {ret : Word} {brk : Bool} {vec : Word} {t : State} (h : InterruptTaken ret brk vec s t)
    (l : Lines) : InterruptTaken ret brk vec s (t.setLines l) :=
  interruptTaken_congr h rfl rfl rfl rfl rfl rfl rfl rfl rfl

/-- The IRQ service takes the interrupt; the sources are acknowledged after it (R241, R242). -/
theorem serviceIrq_taken (s : State) : InterruptTaken s.pc false vecIrq s (serviceIrq s) :=
  interruptTaken_signal (interruptTaken_setLines (service_taken s (.inr rfl)) _) _ _

theorem serviceNmi_linesKept (s : State) :
    LinesKept (s.setLines { s.lines with nmiPending := false }) (serviceNmi s) := by
  rw [serviceNmi, linesKept_addCycles, linesKept_signal]
  exact service_linesKept _ _

theorem serviceNmi_outcomes (s : State) : (serviceNmi s).out.outcomes = s.out.outcomes ++ [.serviced .nmi] := by
  simp [serviceNmi]

theorem serviceIrq_outcomes (s : State) : (serviceIrq s).out.outcomes = s.out.outcomes ++ [.serviced .irq] := by
  simp [serviceIrq]

theorem serviceNmi_cycles (s : State) : (serviceNmi s).out.cycles = s.out.cycles + 7 := by simp [serviceNmi, intCycles]

theorem serviceIrq_cycles (s : State) : (serviceIrq s).out.cycles = s.out.cycles + 7 := by simp [serviceIrq, intCycles]

theorem mem_ackedSources {q : IrqSource} : q ∈ ackedSources s ↔
    q ∈ s.lines.irqActive ∧ q ∉ s.params.irqDisabled ∧ q ∈ s.params.irqAutoAck := by
  simp [ackedSources, irqEnabled, irqAutoAcked]

/-- The lines after the IRQ service are those that its hooks left, less the acknowledged sources (R241). -/
theorem serviceIrq_lines (s : State) : (serviceIrq s).lines = { (service vecIrq s).lines with
    irqActive := (service vecIrq s).lines.irqActive.filter fun q => !((ackedSources s).contains q) } := by
  rw [serviceIrq, State.addCycles_lines, State.signal_lines, State.setLines_lines]

/-! ## The boundary evaluation -/

theorem boundary_of_irq (hnmi : s.lines.nmiPending = false) (hreq : s.irqRequest = true) (hi : s.flags.i = false) :
    boundary s = serviceIrq s := by
  simp [boundary, hnmi, hreq, hi]

theorem boundary_of_no_request (hnmi : s.lines.nmiPending = false) (hreq : s.irqRequest = false) : boundary s = s := by
  simp [boundary, hnmi, hreq]

/-- What the boundary can do: service a latched NMI, or else the IRQ class when it is requested and not masked, or else nothing
(R239). -/
theorem boundary_cases (s : State) : (s.lines.nmiPending = true ∧ boundary s = serviceNmi s) ∨
    (s.lines.nmiPending = false ∧ s.irqRequest = true ∧ s.flags.i = false ∧ boundary s = serviceIrq s) ∨
    (s.lines.nmiPending = false ∧ (s.irqRequest = false ∨ s.flags.i = true) ∧ boundary s = s) := by
  cases hnmi : s.lines.nmiPending
  case true => exact .inl ⟨rfl, boundary_of_nmiPending hnmi⟩
  case false =>
    cases hreq : s.irqRequest
    case false => exact .inr (.inr ⟨rfl, .inl rfl, boundary_of_no_request hnmi hreq⟩)
    case true =>
      cases hi : s.flags.i
      case false => exact .inr (.inl ⟨rfl, rfl, rfl, boundary_of_irq hnmi hreq hi⟩)
      case true => exact .inr (.inr ⟨rfl, .inr rfl, boundary_of_masked hnmi hi⟩)

/-- Settles O44: the three cases of the boundary, and what each of the two services does. -/
theorem boundaryServicesNmiThenIrq : Obligations.BoundaryServicesNmiThenIrq := by
  refine ⟨fun _ => rfl, fun _ => rfl, fun s hnmi => ?nmi, fun s hnmi hi hreq => ?irq, fun s hnmi hnone => ?none⟩
  case nmi =>
    rw [boundary_of_nmiPending hnmi]
    exact ⟨serviceNmi_taken s, serviceNmi_linesKept s, serviceNmi_outcomes s, serviceNmi_cycles s⟩
  case irq =>
    rw [boundary_of_irq hnmi (irqRequest_iff.2 hreq) hi]
    refine ⟨serviceIrq_taken s, ?_, serviceIrq_outcomes s, serviceIrq_cycles s⟩
    obtain ⟨hplain, k, hdraws, hlines⟩ := service_linesKept vecIrq s
    have hk : s.params.hooked = [] → k = 0 := fun h => by
      obtain ⟨-, hsame⟩ := hplain h
      omega
    have hdraws' : (serviceIrq s).draws = s.draws + k := by
      rw [← hdraws, serviceIrq, State.addCycles_draws, State.signal_draws, State.setLines_draws]
    rw [serviceIrq_lines]
    refine ⟨k, _, hlines, hdraws', hk, rfl, rfl, fun q => ?_⟩
    simp only [List.mem_filter, Bool.not_eq_true', List.contains_eq_mem, decide_eq_false_iff_not, mem_ackedSources]
  case none =>
    obtain hi | hoff := hnone
    · exact boundary_of_masked hnmi hi
    · have hreq : ¬s.irqRequest = true := fun h => by
        obtain ⟨q, hq, hon⟩ := irqRequest_iff.1 h
        exact hon (hoff q hq)
      exact boundary_of_no_request hnmi (Bool.eq_false_iff.2 hreq)

/-- Settles O45: a service is `takeInterrupt` with Break 0, and either service at the boundary adds its 7 cycles. -/
theorem servicePushesPcAndStatus : Obligations.ServicePushesPcAndStatus := by
  refine ⟨fun vec s hv => ?service, fun s htaken => ?cycles⟩
  case service =>
    exact ⟨service_taken s hv, service_linesKept vec s, statusByte_breakBit false _, statusByte_bit5 false _,
      statusByte_getLsbD false s.flags 2, takeInterrupt_accesses s.pc false vec s⟩
  case cycles =>
    obtain ⟨-, h⟩ | ⟨-, -, -, h⟩ | ⟨hnmi, hnone, -⟩ := boundary_cases s
    · rw [h, serviceNmi_cycles]
    · rw [h, serviceIrq_cycles]
    · obtain h | h := hnone <;> simp [hnmi, h] at htaken

/-- Settles O57: the two signals by their definition, the service by the cases of the boundary. -/
theorem nmiIsLatchedOncePerEdge : Obligations.NmiIsLatchedOncePerEdge := by
  refine ⟨fun s h => ?raised, fun s h => ?repeated, fun s => rfl, fun s hnmi => ?latched, fun s hnmi => ?unlatched⟩
  case raised => simp [applyEnv, applyLineOp, h]
  case repeated =>
    simp only [applyEnv, applyLineOp, h, if_true]
    rfl
  case latched =>
    rw [boundary_of_nmiPending hnmi]
    have hlines := serviceNmi_linesKept s
    exact ⟨serviceNmi_outcomes s, hlines, fun h => And.left (hlines.plain h)⟩
  case unlatched =>
    obtain ⟨hlatched, -⟩ | ⟨-, -, -, h⟩ | ⟨-, -, h⟩ := boundary_cases s
    · rw [hnmi] at hlatched
      cases hlatched
    · exact .inr (h ▸ serviceIrq_outcomes s)
    · exact .inl (h.symm ▸ rfl)

/-- A boundary with an enabled source active and no NMI latched follows the I that the instruction part left (R240). -/
theorem boundary_of_request (hnmi : s.lines.nmiPending = false) (hreq : s.irqRequest = true) :
    (s.flags.i = false → InterruptTaken s.pc false vecIrq s (boundary s) ∧
      (boundary s).out.outcomes = s.out.outcomes ++ [.serviced .irq] ∧ (boundary s).out.cycles = s.out.cycles + 7) ∧
    (s.flags.i = true → boundary s = s) := by
  refine ⟨fun hi => ?_, boundary_of_masked hnmi⟩
  rw [boundary_of_irq hnmi hreq hi]
  exact ⟨serviceIrq_taken s, serviceIrq_outcomes s, serviceIrq_cycles s⟩

/-- Settles O46: CLI and SEI leave the lines, so the request stands at their own boundary. -/
theorem interruptDisableIsSeenAtOnce : Obligations.InterruptDisableIsSeenAtOnce := by
  refine ⟨fun i s u hu hnmi hreq => ?any, fun s hnmi hreq => ⟨?cli, ?sei⟩⟩
  case any => exact ⟨boundary u, by rw [hu]; rfl, boundary_of_request hnmi hreq⟩
  case cli =>
    obtain ⟨hclear, -⟩ := boundary_of_request (s := retire .cli false (s.setFlags { s.flags with i := false })) hnmi hreq
    obtain ⟨htaken, houtcomes, hcycles⟩ := hclear rfl
    exact ⟨_, rfl, interruptTaken_from htaken rfl rfl rfl rfl rfl rfl rfl rfl rfl, houtcomes, hcycles⟩
  case sei =>
    obtain ⟨-, hset⟩ := boundary_of_request (s := retire .sei false (s.setFlags { s.flags with i := true })) hnmi hreq
    exact ⟨_, congrArg Host.Outcome.next (hset rfl), rfl, rfl, rfl, rfl, rfl, rfl⟩

/-! ## A step of a legal instruction -/

/-- Every legal instruction completes from every state (R233). -/
theorem exec_completes {i : Instr} (hlegal : ∀ op, i ≠ .unknown op) (s : State) : ∃ t, exec i s = .next t := by
  cases i
  case unknown op => exact absurd rfl (hlegal op)
  all_goals exact ⟨_, rfl⟩

/-- A byte with a row decodes to an instruction with a mnemonic (R84). -/
theorem decodeBytes_ne_unknown {op : Byte} (h : op ∉ unknownOpcodes) (b1 b2 op' : Byte) :
    decodeBytes op b1 b2 ≠ .unknown op' := by
  intro e
  obtain ⟨r, hr⟩ := Option.ne_none_iff_exists'.1 (mt (rowOfByte_none op).1 h)
  obtain ⟨hmnemonic, -⟩ := assemble_some (decodeBytes_row hr b1 b2)
  rw [e] at hmnemonic
  cases hmnemonic

/-- Settles O43: a step from Running completes at a legal byte, and at an unknown byte by the policy (O37). -/
theorem stepsCompleteButForIdleAndHalt : Obligations.StepsCompleteButForIdleAndHalt := by
  refine ⟨fun s => ?step, fun i s hlegal => exec_completes hlegal s⟩
  cases hrun : s.run with
  | idle => exact .inr (.inl ⟨step_idle hrun, rfl⟩)
  | running =>
    by_cases hop : s.portByte s.pc ∈ unknownOpcodes
    · obtain ⟨-, -, -, -, hhalt, hskip⟩ := unknownBytesSkipOrHalt
      cases hpolicy : s.params.unknownPolicy with
      | halt => exact .inr (.inr ⟨hhalt _ s hrun hpolicy hop rfl, rfl, rfl, hop⟩)
      | skip =>
        obtain ⟨u, -, hstep⟩ := hskip _ s hrun hpolicy hop rfl
        exact .inl ⟨_, hstep⟩
    · obtain ⟨u, hu⟩ := exec_completes (i := (fetch s.beginOutput).instr) (decodeBytes_ne_unknown hop _ _)
        (fetch s.beginOutput).state
      exact .inl ⟨boundary u, by rw [step_running hrun, hu]; rfl⟩

/-! ## The fetch in plain RAM -/

/-- The decoder looks at no more operand bytes than the size takes: an instruction is determined by its encoding. -/
theorem decodeBytes_congr {op b1 b2 c1 c2 : Byte}
    (h : [b1, b2].take (sizeOfByte op - 1) = [c1, c2].take (sizeOfByte op - 1)) :
    decodeBytes op b1 b2 = decodeBytes op c1 c2 := by
  obtain ⟨hwf, hbytes⟩ := decodeBytes_spec op b1 b2
  obtain ⟨hwf', hbytes'⟩ := decodeBytes_spec op c1 c2
  have hdecode := decode_encode hwf []
  rw [hbytes, h, ← hbytes', decode_encode hwf' []] at hdecode
  exact (Decoded.ok.inj hdecode).1.symm

theorem State.setOut_setOut (s : State) (o o' : StepOutput) : (s.setOut o).setOut o' = s.setOut o' := rfl

theorem fetchOperand_plain {size k : Nat} {pc : Word} (h : plainRam s.params (pc + BitVec.ofNat 16 k) = true) :
    fetchOperand size k pc s = if k < size then (s.mem.read (pc + BitVec.ofNat 16 k).toNat,
      s.noteAccess (.read (pc + BitVec.ofNat 16 k) (s.mem.read (pc + BitVec.ofNat 16 k).toNat))) else (0#8, s) := by
  rw [fetchOperand, memRead_plain h]

/-- From plain RAM the fetch gives what the three bytes at PC decode to, and notes the reads of as many as the size says (R54). -/
theorem fetch_plain (h0 : plainRam s.params s.pc = true) (h1 : plainRam s.params (s.pc + 1#16) = true)
    (h2 : plainRam s.params (s.pc + 2#16) = true) : fetch s =
      { instr := decodeBytes (s.mem.read s.pc.toNat) (s.mem.read (s.pc + 1#16).toNat) (s.mem.read (s.pc + 2#16).toNat),
        state := s.setOut { s.out with accesses := s.out.accesses ++
          [Access.read s.pc (s.mem.read s.pc.toNat), .read (s.pc + 1#16) (s.mem.read (s.pc + 1#16).toNat),
            .read (s.pc + 2#16) (s.mem.read (s.pc + 2#16).toNat)].take (sizeOfByte (s.mem.read s.pc.toNat)) } } := by
  have hpos := sizeOfByte_pos (s.mem.read s.pc.toNat)
  have hle := sizeOfByte_le_three (s.mem.read s.pc.toNat)
  have hsize : sizeOfByte (s.mem.read s.pc.toNat) = 1 ∨ sizeOfByte (s.mem.read s.pc.toNat) = 2 ∨
      sizeOfByte (s.mem.read s.pc.toNat) = 3 := by omega
  rw [fetch, memRead_plain h0, Fetched.mk.injEq]
  refine ⟨decodeBytes_congr ?decoded, ?reads⟩
  case decoded => rcases hsize with hn | hn | hn <;> simp [hn, fetchOperand_plain, h1, h2]
  case reads =>
    rcases hsize with hn | hn | hn <;> simp [hn, fetchOperand_plain, h1, h2, State.noteAccess, State.setOut_setOut]

/-- Settles O41: the decoder sees the three bytes whole and the fetch as many as the size, which decode alike. -/
theorem stepRunsTheDecodedInstruction : Obligations.StepRunsTheDecodedInstruction := by
  refine ⟨fun s i rest hrun h0 h1 h2 hdecode => ?_, fun _ => rfl⟩
  obtain ⟨op, tail, hbytes, -, rfl, -⟩ := decode_ok hdecode
  cases hbytes
  rw [step_running hrun, fetch_plain (s := s.beginOutput) h0 h1 h2, decodeBytes_size]
  rfl

end Sys2Proof.Machine
end

section
/-! PROOFS. Reset (`spec/70_reset_and_hazards.md` R271) and the cycle numbers of a step (R280 to R283). -/

namespace Sys2Proof.Machine

open Sys2Proof.Safety

/-! ## Reset -/

theorem envReset_pc (d : Draws) (s : State) : (envReset d s).pc = (readWord vecReset s).1 :=
  readPair_congr (s := s) (t := s.beginOutput) rfl rfl rfl _ _

/-- The lines after reset are those that the hooks of the vector reads left, but for the latch (R40, R271). -/
theorem envReset_lines (d : Draws) (s : State) : (envReset d s).lines = { (readWord vecReset s.beginOutput).2.lines with
    nmiPending := resetPending s.params.resetNmi (readWord vecReset s.beginOutput).2.lines.nmiPending d.nmi } := by
  simp [envReset]

theorem envReset_draws (d : Draws) (s : State) : (envReset d s).draws = (readWord vecReset s.beginOutput).2.draws := rfl

theorem envReset_accesses (d : Draws) (s : State) : accessesOf (envReset d s).out = [.r vecReset, .r (vecReset + 1#16)] :=
  readPair_accesses vecReset (vecReset + 1#16) s.beginOutput

/-- Settles O56: reset is the read of its vector and the writes of the fields drawn or fixed. -/
theorem resetLoadsTheVectorAndSetsI : Obligations.ResetLoadsTheVectorAndSetsI := by
  intro d s
  refine ⟨⟨envReset_run d s, envReset_mem d s, envReset_params d s⟩, envReset_pc d s, fun hlow hhigh => ?vector, rfl,
    ⟨rfl, rfl, rfl, rfl⟩, ?lines, ?cycles, ?outcomes, envReset_accesses d s⟩
  case vector =>
    rw [envReset_pc]
    exact readPair_plain hlow hhigh
  case lines =>
    obtain ⟨hplain, k, hdraws, hlines⟩ := readWord_linesKept vecReset s.beginOutput
    have hk : s.params.hooked = [] → k = 0 := fun h => by
      obtain ⟨-, hsame⟩ := hplain h
      omega
    rw [envReset_lines]
    exact ⟨k, _, hlines, hdraws, hk, rfl, rfl, fun h => by rw [h]; rfl, fun h => by rw [h]; rfl, fun h => by rw [h]; rfl⟩
  case cycles => simp [envReset, intCycles]
  case outcomes => simp [envReset]

/-! ## Cycle numbers -/

theorem retire_cycles_le (i : Instr) (crossed : Bool) (s : State) : (retire i crossed s).out.cycles ≤ s.out.cycles + 7 :=
  Nat.add_le_add_left (minCycles_add_crossCycles_le i crossed) _

theorem retireTo_cycles_le (i : Instr) (target : Word) (s : State) : (retireTo i target 0 s).out.cycles ≤ s.out.cycles + 7 :=
  Nat.add_le_add_left (minCycles_le i) _

theorem shiftTarget_cycles_le (i : Instr) (t : Target) (f : Byte → Shifted) (s : State) :
    (shiftTarget i t f s).out.cycles ≤ s.out.cycles + 7 := by
  cases t with
  | acc => exact retire_cycles_le i false _
  | mem m =>
    rw [shiftTarget, modifyByte_out_cycles]
    exact Nat.add_le_add_left (minCycles_add_crossCycles_le i _) _

/-- A taken branch adds at most two cycles to the two of every branch (R197, R281). -/
theorem branchIf_cycles_le {i : Instr} (hi : minCycles i = 2) (cond : Bool) (d : Byte) (s : State) :
    (branchIf i cond d s).out.cycles ≤ s.out.cycles + 7 := by
  cases cond with
  | false => exact retire_cycles_le i false s
  | true =>
    have hcrossed := branchCrossed_toNat_le s.pc d
    rw [branchIf, if_pos rfl, retireTo_out_cycles, hi]
    omega

theorem execUnknown_cycles_le {op : Byte} {s t : State} (hskip : s.params.unknownCycles ≤ 7) (h : execUnknown op s = .next t) :
    t.out.cycles ≤ s.out.cycles + 7 := by
  unfold execUnknown at h
  split at h
  · cases h
  · cases h
    exact Nat.add_le_add_left hskip _

/-- No instruction part puts out more than 7 cycles, by the shape that ends it (R280 to R282). -/
theorem exec_cycles_le {i : Instr} {s t : State} (hskip : s.params.unknownCycles ≤ 7) (h : exec i s = .next t) :
    t.out.cycles ≤ s.out.cycles + 7 := by
  cases i
  case unknown op => exact execUnknown_cycles_le hskip h
  all_goals obtain rfl := Host.Outcome.next.inj h
  case sta | stx | sty =>
    rw [storeByte_out_cycles]
    exact Nat.add_le_add_left (minCycles_add_crossCycles_le _ _) _
  case inc | dec =>
    rw [modifyByte_out_cycles]
    exact Nat.add_le_add_left (minCycles_add_crossCycles_le _ _) _
  case asl | lsr | rol | ror => exact shiftTarget_cycles_le _ _ _ _
  case bpl | bmi | bvc | bvs | bcc | bcs | bne | beq => exact branchIf_cycles_le rfl _ _ _
  case jmp | jsr | rts | rti | brk => exact (retireTo_cycles_le _ _ _).trans_eq (by simp)
  all_goals exact (retire_cycles_le _ _ _).trans_eq (by simp)

theorem boundary_cycles_le (s : State) : (boundary s).out.cycles ≤ s.out.cycles + 7 := by
  obtain ⟨-, h⟩ | ⟨-, -, -, h⟩ | ⟨-, -, h⟩ := boundary_cases s
  · exact h ▸ (serviceNmi_cycles s).le
  · exact h ▸ (serviceIrq_cycles s).le
  · exact h.symm ▸ Nat.le_add_right _ _

/-- Settles O48: the fetch puts out no cycle, and the instruction part and the boundary at most 7 each. -/
theorem stepCyclesAreAtMostFourteen : Obligations.StepCyclesAreAtMostFourteen := by
  intro s t hskip h
  obtain ⟨-, u, hu, rfl⟩ := step_next h
  have hfetch : (fetch s.beginOutput).state.out.cycles = 0 := fetch_out_cycles _
  have hexec := exec_cycles_le (by simpa using hskip) hu
  have hboundary := boundary_cycles_le u
  omega

end Sys2Proof.Machine
end
